-- ==== Sys2Proof/Word.lean ====
section
/-! DEFINITION. The word types of the NEC-IR decoder (spec/00_scope.md R6): all values are unsigned bit vectors. -/

namespace Sys2Proof

/-- The 32-bit command accumulator and READ's destination cell (spec/10_state.md R13, spec/20_memory.md R31). -/
abbrev Command := BitVec 32

/-- An 8-bit tick count: `tcnt`, and the `tau` captured from it (spec/10_state.md R17, spec/30_encoding.md R44). -/
abbrev Tau := BitVec 8

/-- The 8-bit bit counter `rem` (spec/10_state.md R14). -/
abbrev Count := BitVec 8

/-- An 11-bit event word or classifier word (spec/30_encoding.md R41, R42). -/
abbrev Word11 := BitVec 11

end Sys2Proof
end

