-- ==== Sys2Proof/Config.lean ====
section
/-! DEFINITION. What the spec leaves free or open: values with no body, so that no proof can lean on one. -/

namespace Sys2Proof

/-- FREE VALUE: what the n-th TICK before INIT leaves in `tcnt` (spec/93_implementation_defined.md U3, "TICK before INIT:
`any value` for `tcnt`"). Log entry 5. -/
opaque Config.freeTcnt : Nat → Tau

/-- FREE VALUE: what the n-th TICK before INIT leaves in `ovf` (spec/40_timer.md R60 UNSPECIFIED). Log entry 5. -/
opaque Config.freeOvf : Nat → Bool

/-- OPEN PARAMETER TICK_US, the nominal tick period in microseconds; no rule reads it (spec/92_eei_decisions.md D23). Log entry 10. -/
opaque Config.tickMicroseconds : Nat

/-- OPEN PARAMETER PRESCALE; no rule reads it (spec/92_eei_decisions.md D23). Log entry 10. -/
opaque Config.prescale : Nat

/-- OPEN PARAMETER F_CLK, the input clock; no rule reads it (spec/92_eei_decisions.md D23). Log entry 10. -/
opaque Config.inputClock : Nat

end Sys2Proof
end

