-- ==== Sys2Proof/Syntax.lean ====
section
/-! DEFINITION. The syntax of the machine: levels, phases, symbols, and ONE instruction type with a constructor for every row
of spec/opcode_table.json (six operations, eighteen classifier rows). -/

namespace Sys2Proof

/-- The sampled level of the input line AFTER an edge (spec/30_encoding.md R43). -/
inductive Level where
  | low
  | high
  deriving DecidableEq, Repr

/-- The sequencing state (spec/10_state.md R11): AwaitingPreamble, AwaitingGap, ReceivingBits, Complete. -/
inductive Phase where
  | ap
  | ag
  | rb
  | cp
  deriving DecidableEq, Repr

/-- The classifier's alphabet (spec/30_encoding.md R47). -/
inductive Symbol where
  | pre
  | gap
  | rpt
  | b0
  | b1
  | fin
  | x
  deriving DecidableEq, Repr

/-- The two interface levels (spec/00_scope.md R4): T, where `tau` is read from the tick counter, and A, where `tau` is an
input of the EDGE event. -/
inductive Iface where
  | levelT
  | levelA
  deriving DecidableEq, Repr

/-- Who issues an operation (spec/30_encoding.md R40): the line is the environment, and takes no step of its own
(spec/00_scope.md R5). -/
inductive Issuer where
  | consumer
  | timer
  | line
  deriving DecidableEq, Repr

/-- The agents that take steps (spec/00_scope.md R5, spec/60_exceptions.md R109). -/
inductive Agent where
  | consumer
  | handler
  | timer
  deriving DecidableEq, Repr

/-- The instructions, one constructor for each row of spec/opcode_table.json. The classifier rows carry the `tau` of their
word; EDGE carries `none` at Level T and `some tau` at Level A (spec/30_encoding.md R40). -/
inductive Instr where
  | pre (tau : Tau)
  | gap (tau : Tau)
  | rpt (tau : Tau)
  | b0 (tau : Tau)
  | b1 (tau : Tau)
  | fin (tau : Tau)
  | xApL (tau : Tau)
  | xApHLo (tau : Tau)
  | xApHHi (tau : Tau)
  | xAgLA (tau : Tau)
  | xAgLB (tau : Tau)
  | xAgLC (tau : Tau)
  | xAgH (tau : Tau)
  | xRbLA (tau : Tau)
  | xRbLB (tau : Tau)
  | xRbLC (tau : Tau)
  | xRbH (tau : Tau)
  | xCpL (tau : Tau)
  | init
  | start
  | stop
  | read
  | tick
  | edge (level : Level) (tau : Option Tau)
  deriving DecidableEq, Repr

/-- An event word with the interface level it is spoken at (spec/30_encoding.md R41). -/
structure Event where
  iface : Iface
  word : Word11
  deriving DecidableEq, Repr

/-- An encoded instruction: an event word (format EV) or a classifier word (format CW). The two formats share their numbers,
so the format is part of the code (spec/30_encoding.md R55). -/
inductive Code where
  | event (e : Event)
  | classifier (cw : Word11)
  deriving DecidableEq, Repr

/-- Why a word spells no event (spec/30_encoding.md R53). -/
inductive Reject where
  /-- `kind = 3`. -/
  | reservedKind
  /-- A CTRL word with any of `ev[8:2]` nonzero. -/
  | ctrlPadding
  /-- A TICK word with any of `ev[8:0]` nonzero. -/
  | tickPadding
  /-- An EDGE word at Level T with `tau` nonzero. -/
  | tauAtLevelT
  /-- TICK at Level A, where the event does not exist (spec/40_timer.md R65). -/
  | tickAtLevelA
  deriving DecidableEq, Repr

/-- Who issues an operation: the column "issued by" of spec/30_encoding.md R40. A classifier row is no operation of R40 and nobody
issues it: the handler applies it to an EDGE of the line (spec/30_encoding.md R55). -/
def Instr.issuer? : Instr → Option Issuer
  | .init | .start | .stop | .read => some .consumer
  | .tick => some .timer
  | .edge _ _ => some .line
  | .pre _ | .gap _ | .rpt _ | .b0 _ | .b1 _ | .fin _ => none
  | .xApL _ | .xApHLo _ | .xApHHi _ => none
  | .xAgLA _ | .xAgLB _ | .xAgLC _ | .xAgH _ => none
  | .xRbLA _ | .xRbLB _ | .xRbLC _ | .xRbH _ => none
  | .xCpL _ => none

/-- The agent whose step an instruction is (spec/00_scope.md R5, spec/60_exceptions.md R109): EDGE and the classifier rows are the
handler's, whoever issued the event. -/
def Instr.agent : Instr → Agent
  | .init | .start | .stop | .read => .consumer
  | .tick => .timer
  | .edge _ _ => .handler
  | .pre _ | .gap _ | .rpt _ | .b0 _ | .b1 _ | .fin _ => .handler
  | .xApL _ | .xApHLo _ | .xApHHi _ => .handler
  | .xAgLA _ | .xAgLB _ | .xAgLC _ | .xAgH _ => .handler
  | .xRbLA _ | .xRbLB _ | .xRbLC _ | .xRbH _ => .handler
  | .xCpL _ => .handler

end Sys2Proof
end

