-- ==== Sys2Proof/Decode.lean ====
section
/-! DEFINITION. The decoder of event words and classifier words, the classifier of spec/30_encoding.md R46, and, after them,
the encoder written from the same tables. -/

namespace Sys2Proof

/-! ### Fields -/

/-- The 2-bit code of a phase (spec/10_state.md R11). -/
def phaseCode : Phase → BitVec 2
  | .ap => 0b00#2
  | .ag => 0b01#2
  | .rb => 0b10#2
  | .cp => 0b11#2

/-- The phase of a 2-bit code; all four codes are used (spec/10_state.md R11). -/
def phaseOfCode (c : BitVec 2) : Phase :=
  if c = 0b00#2 then .ap else if c = 0b01#2 then .ag else if c = 0b10#2 then .rb else .cp

/-- The level bit: 0 = low, 1 = high (spec/30_encoding.md R41, R42). -/
def levelCode : Level → BitVec 1
  | .low => 0#1
  | .high => 1#1

/-- The level of a level bit. -/
def levelOfBit (b : Bool) : Level :=
  if b then .high else .low

/-- Bits 10:9: `kind` of an event word, `phase` of a classifier word. -/
def topField (w : Word11) : BitVec 2 := w.extractLsb' 9 2

/-- Bit 8: the level. -/
def levelField (w : Word11) : Level := levelOfBit (w.getLsbD 8)

/-- Bits 7:0: `tau`. -/
def tauField (w : Word11) : Tau := w.extractLsb' 0 8

/-- The classifier word `phase ‖ level ‖ tau` (spec/30_encoding.md R42). -/
def classifierWord (p : Phase) (l : Level) (t : Tau) : Word11 :=
  phaseCode p ++ levelCode l ++ t

/-- The EDGE event word `2 ‖ level ‖ tau` (spec/30_encoding.md R41). -/
def edgeWord (l : Level) (t : Tau) : Word11 :=
  0b10#2 ++ levelCode l ++ t

/-! ### Decoding -/

/-- The operation of a CTRL word's `op` field (spec/30_encoding.md R41). -/
def decodeOp (op : BitVec 2) : Instr :=
  if op = 0#2 then .init else if op = 1#2 then .start else if op = 2#2 then .stop else .read

/-- The instruction an event word spells, or the reason it spells none (spec/30_encoding.md R41, R53). -/
def decodeEvent (e : Event) : Except Reject Instr :=
  if topField e.word = 0#2 then
    if e.word.extractLsb' 2 7 = 0#7 then .ok (decodeOp (e.word.extractLsb' 0 2)) else .error .ctrlPadding
  else if topField e.word = 1#2 then
    if e.word.extractLsb' 0 9 = 0#9 then
      match e.iface with
      | .levelT => .ok .tick
      | .levelA => .error .tickAtLevelA
    else .error .tickPadding
  else if topField e.word = 2#2 then
    match e.iface with
    | .levelT =>
      if tauField e.word = 0#8 then .ok (.edge (levelField e.word) none) else .error .tauAtLevelT
    | .levelA => .ok (.edge (levelField e.word) (some (tauField e.word)))
  else .error .reservedKind

/-- The row a level-high word of phase AP belongs to (spec/30_encoding.md R46, R48). -/
def decodeApHigh (t : Tau) : Instr :=
  if t.toNat ≤ 120 then .xApHLo t else if t.toNat ≤ 159 then .pre t else .xApHHi t

/-- The row a level-low word of phase AG belongs to (spec/30_encoding.md R46, R48). -/
def decodeAgLow (t : Tau) : Instr :=
  if t.toNat ≤ 30 then .xAgLA t
  else if t.toNat ≤ 39 then .rpt t
  else if t.toNat ≤ 60 then .xAgLB t
  else if t.toNat ≤ 79 then .gap t
  else .xAgLC t

/-- The row a level-low word of phase RB belongs to (spec/30_encoding.md R46, R48). -/
def decodeRbLow (t : Tau) : Instr :=
  if t.toNat ≤ 5 then .xRbLA t
  else if t.toNat ≤ 9 then .b0 t
  else if t.toNat ≤ 20 then .xRbLB t
  else if t.toNat ≤ 29 then .b1 t
  else .xRbLC t

/-- The row of the table that holds a triple (spec/30_encoding.md R46, R48): total. -/
def rowOf (p : Phase) (l : Level) (t : Tau) : Instr :=
  match p, l with
  | .ap, .low => .xApL t
  | .ap, .high => decodeApHigh t
  | .ag, .low => decodeAgLow t
  | .ag, .high => .xAgH t
  | .rb, .low => decodeRbLow t
  | .rb, .high => .xRbH t
  | .cp, .low => .xCpL t
  | .cp, .high => .fin t

/-- The row a classifier word belongs to; no classifier word is reserved (spec/30_encoding.md R53, R55). -/
def decodeClassifier (cw : Word11) : Instr :=
  rowOf (phaseOfCode (topField cw)) (levelField cw) (tauField cw)

/-- The decoder: total, and rejecting by name. -/
def decode : Code → Except Reject Instr
  | .event e => decodeEvent e
  | .classifier cw => .ok (decodeClassifier cw)

/-! ### The classifier, by strict windows -/

/-- A tick window test: an OPEN interval, both comparisons strict and unsigned (spec/30_encoding.md R45, C1). -/
def inWindow (lo hi : Nat) (t : Tau) : Bool :=
  decide (lo < t.toNat) && decide (t.toNat < hi)

/-- PRE_LO, PRE_HI (spec/00_scope.md R6). -/
def inPreambleWindow (t : Tau) : Bool := inWindow 120 160 t
/-- GAP_LO, GAP_HI (spec/00_scope.md R6). -/
def inGapWindow (t : Tau) : Bool := inWindow 60 80 t
/-- RPT_LO, RPT_HI (spec/00_scope.md R6). -/
def inRepeatWindow (t : Tau) : Bool := inWindow 30 40 t
/-- B0_LO, B0_HI (spec/00_scope.md R6). -/
def inZeroWindow (t : Tau) : Bool := inWindow 5 10 t
/-- B1_LO, B1_HI (spec/00_scope.md R6). -/
def inOneWindow (t : Tau) : Bool := inWindow 20 30 t

/-- `classify(phase, level, tau)`, the table of spec/30_encoding.md R46: no matching row gives X. -/
def classify (p : Phase) (l : Level) (t : Tau) : Symbol :=
  match p, l with
  | .ap, .high => if inPreambleWindow t then .pre else .x
  | .ag, .low => if inGapWindow t then .gap else if inRepeatWindow t then .rpt else .x
  | .rb, .low => if inZeroWindow t then .b0 else if inOneWindow t then .b1 else .x
  | .cp, .high => .fin
  | .ap, .low => .x
  | .ag, .high => .x
  | .rb, .high => .x
  | .cp, .low => .x

/-! ### The rows of the opcode table, as data -/

/-- One CW row of spec/opcode_table.json: its phase, its level, and `tau_min`, `tau_max`, both inclusive. -/
structure Row where
  phase : Phase
  level : Level
  tauMin : Nat
  tauMax : Nat
  tau : Tau
  deriving DecidableEq, Repr

/-- The row of a classifier instruction with the `tau` it carries; `none` for an operation of format EV. -/
def Instr.row? : Instr → Option Row
  | .pre t => some ⟨.ap, .high, 121, 159, t⟩
  | .gap t => some ⟨.ag, .low, 61, 79, t⟩
  | .rpt t => some ⟨.ag, .low, 31, 39, t⟩
  | .b0 t => some ⟨.rb, .low, 6, 9, t⟩
  | .b1 t => some ⟨.rb, .low, 21, 29, t⟩
  | .fin t => some ⟨.cp, .high, 0, 255, t⟩
  | .xApL t => some ⟨.ap, .low, 0, 255, t⟩
  | .xApHLo t => some ⟨.ap, .high, 0, 120, t⟩
  | .xApHHi t => some ⟨.ap, .high, 160, 255, t⟩
  | .xAgLA t => some ⟨.ag, .low, 0, 30, t⟩
  | .xAgLB t => some ⟨.ag, .low, 40, 60, t⟩
  | .xAgLC t => some ⟨.ag, .low, 80, 255, t⟩
  | .xAgH t => some ⟨.ag, .high, 0, 255, t⟩
  | .xRbLA t => some ⟨.rb, .low, 0, 5, t⟩
  | .xRbLB t => some ⟨.rb, .low, 10, 20, t⟩
  | .xRbLC t => some ⟨.rb, .low, 30, 255, t⟩
  | .xRbH t => some ⟨.rb, .high, 0, 255, t⟩
  | .xCpL t => some ⟨.cp, .low, 0, 255, t⟩
  | .init => none
  | .start => none
  | .stop => none
  | .read => none
  | .tick => none
  | .edge _ _ => none

/-- The symbol a classifier row stands for (spec/30_encoding.md R46, R48). -/
def Instr.symbol? : Instr → Option Symbol
  | .pre _ => some .pre
  | .gap _ => some .gap
  | .rpt _ => some .rpt
  | .b0 _ => some .b0
  | .b1 _ => some .b1
  | .fin _ => some .fin
  | .xApL _ | .xApHLo _ | .xApHHi _ => some .x
  | .xAgLA _ | .xAgLB _ | .xAgLC _ | .xAgH _ => some .x
  | .xRbLA _ | .xRbLB _ | .xRbLC _ | .xRbH _ => some .x
  | .xCpL _ => some .x
  | .init | .start | .stop | .read | .tick => none
  | .edge _ _ => none

/-- `tau_min <= tau <= tau_max`, both bounds inclusive (spec/30_encoding.md R55). -/
def Row.holdsTau (r : Row) : Bool :=
  decide (r.tauMin ≤ r.tau.toNat) && decide (r.tau.toNat ≤ r.tauMax)

/-! ### Encoding -/

/-- The code of an instruction: its event word with its interface level, or its classifier word. The control operations are
spoken at Level T here; their words are the same at Level A (spec/30_encoding.md R54). -/
def encode (i : Instr) : Code :=
  match i with
  | .init => .event ⟨.levelT, 0x000#11⟩
  | .start => .event ⟨.levelT, 0x001#11⟩
  | .stop => .event ⟨.levelT, 0x002#11⟩
  | .read => .event ⟨.levelT, 0x003#11⟩
  | .tick => .event ⟨.levelT, 0x200#11⟩
  | .edge l none => .event ⟨.levelT, edgeWord l 0#8⟩
  | .edge l (some t) => .event ⟨.levelA, edgeWord l t⟩
  | .pre t => .classifier (0b001#3 ++ t)
  | .gap t => .classifier (0b010#3 ++ t)
  | .rpt t => .classifier (0b010#3 ++ t)
  | .b0 t => .classifier (0b100#3 ++ t)
  | .b1 t => .classifier (0b100#3 ++ t)
  | .fin t => .classifier (0b111#3 ++ t)
  | .xApL t => .classifier (0b000#3 ++ t)
  | .xApHLo t => .classifier (0b001#3 ++ t)
  | .xApHHi t => .classifier (0b001#3 ++ t)
  | .xAgLA t => .classifier (0b010#3 ++ t)
  | .xAgLB t => .classifier (0b010#3 ++ t)
  | .xAgLC t => .classifier (0b010#3 ++ t)
  | .xAgH t => .classifier (0b011#3 ++ t)
  | .xRbLA t => .classifier (0b100#3 ++ t)
  | .xRbLB t => .classifier (0b100#3 ++ t)
  | .xRbLC t => .classifier (0b100#3 ++ t)
  | .xRbH t => .classifier (0b101#3 ++ t)
  | .xCpL t => .classifier (0b110#3 ++ t)

/-- `mask` and `match` of a row of spec/opcode_table.json. -/
def Instr.maskMatch : Instr → Word11 × Word11
  | .pre _ => (0x700#11, 0x100#11)
  | .gap _ => (0x700#11, 0x200#11)
  | .rpt _ => (0x700#11, 0x200#11)
  | .b0 _ => (0x700#11, 0x400#11)
  | .b1 _ => (0x700#11, 0x400#11)
  | .fin _ => (0x700#11, 0x700#11)
  | .xApL _ => (0x700#11, 0x000#11)
  | .xApHLo _ => (0x700#11, 0x100#11)
  | .xApHHi _ => (0x700#11, 0x100#11)
  | .xAgLA _ => (0x700#11, 0x200#11)
  | .xAgLB _ => (0x700#11, 0x200#11)
  | .xAgLC _ => (0x700#11, 0x200#11)
  | .xAgH _ => (0x700#11, 0x300#11)
  | .xRbLA _ => (0x700#11, 0x400#11)
  | .xRbLB _ => (0x700#11, 0x400#11)
  | .xRbLC _ => (0x700#11, 0x400#11)
  | .xRbH _ => (0x700#11, 0x500#11)
  | .xCpL _ => (0x700#11, 0x600#11)
  | .init => (0x7FF#11, 0x000#11)
  | .start => (0x7FF#11, 0x001#11)
  | .stop => (0x7FF#11, 0x002#11)
  | .read => (0x7FF#11, 0x003#11)
  | .tick => (0x7FF#11, 0x200#11)
  | .edge _ _ => (0x600#11, 0x400#11)

/-- The 11 bits of a code. -/
def Code.bits : Code → Word11
  | .event e => e.word
  | .classifier cw => cw

/-! ### A bare number of the opcode table -/

/-- The code a bare 11-bit number is read as when nothing says its format: the Level T event it spells if it spells one, else
the classifier word. DESIGN CHOICE: the table's two formats share their numbers. Log entry 7. -/
def codeOfNumber (w : Word11) : Code :=
  match decodeEvent ⟨.levelT, w⟩ with
  | .ok _ => .event ⟨.levelT, w⟩
  | .error _ => .classifier w

/-- The instruction the decoder reads from a bare number of the opcode table; `none` where bits stand above bit 10, since every
word of the spec has 11 bits (spec/30_encoding.md R41, R42). Log entry 7. -/
def decodeTableWord (_nbits w : Nat) : Option Instr :=
  if w < 2048 then
    match decode (codeOfNumber (BitVec.ofNat 11 w)) with
    | .ok i => some i
    | .error _ => none
  else none

end Sys2Proof
end

