-- ==== Sys2Proof/Machine/State.lean ====
section
/-! DEFINITION. The state of the decoder as plain data (spec/10_state.md R10), the reasons a step can stop, and the state after
power-on. The block has no memory (spec/20_memory.md R30). -/

namespace Sys2Proof.Machine

/-- The state: the seven fields of spec/10_state.md R10, the consumer's cell and READ's result (spec/20_memory.md R31), and two
fields of the model: the events to come and the counter of free draws. -/
structure State where
  /-- INIT has run (R19). -/
  configured : Bool
  /-- The enable of the edge interrupt (R15). -/
  armed : Bool
  /-- The sequencing state (R11). -/
  phase : Phase
  /-- The command accumulator (R13). -/
  acc : Command
  /-- Bits still to receive (R14). -/
  rem : Count
  /-- The tick counter (R17). -/
  tcnt : Tau
  /-- The overflow flag, which nothing reads (R18). -/
  ovf : Bool
  /-- The consumer's 32-bit cell, READ's destination (spec/20_memory.md R31). -/
  out : Command
  /-- The result of the last READ (spec/41_control_surface.md R73). -/
  ok : Bool
  /-- The model's own: the events the environment delivers, oldest first (spec/20_memory.md R36). Log entry 3. -/
  inputs : List Event
  /-- The model's own: how many free values have been drawn. Log entry 5. -/
  draws : Nat
  deriving DecidableEq, Repr

/-- Why the machine stops with no successor state. -/
inductive Fault where
  /-- Raised by B0 and B1 (and by an EDGE that spells one) with `rem = 0`: spec/42_edge_handler.md R87, U1. Safe: a fault has
  no successor, so nothing false can be proved of what follows. -/
  | bitCounterUnderflow
  deriving DecidableEq, Repr

/-- Why the model gives an input no meaning. Each is safe: no successor state is invented. -/
inductive Refusal where
  /-- Raised by no arm of this model: an instruction whose meaning is not written yet. -/
  | notModelled (mnemonic : String)
  /-- Raised by INIT when `configured = 1` (spec/41_control_surface.md R70). -/
  | secondInit
  /-- Raised by START, STOP and READ when `configured = 0` (spec/41_control_surface.md R76). -/
  | beforeInit
  /-- Raised by the step on a word that spells no event (spec/30_encoding.md R53). -/
  | noSuchEvent (why : Reject)
  /-- Raised by a classifier row applied where its condition does not hold. Log entry 8. -/
  | rowNotSelected
  deriving DecidableEq, Repr

/-- The outcome of one step of this machine. -/
abbrev Result := Host.Outcome State Fault Refusal

/-- The state after power-on: `configured = 0`, `armed = 0` (spec/10_state.md R24, spec/70_reset_and_hazards.md R120). The spec
leaves the other registers unspecified: the values here are DESIGN CHOICES, log entries 1 and 2. -/
def State.reset : State :=
  { configured := false
    armed := false
    phase := .ap
    acc := 0#32
    rem := 32#8
    tcnt := 0#8
    ovf := false
    out := 0#32
    ok := false
    inputs := []
    draws := 0 }

end Sys2Proof.Machine
end

