-- ==== Sys2Proof/Machine/Flags.lean ====
section
/-! DEFINITION. The flags and the derived conditions: the overflow flag's next value (spec/40_timer.md R61) and the predicates of
spec/10_state.md R16, which are not state. -/

namespace Sys2Proof.Machine

/-- What READ tests: `phase = CP` and nothing else (spec/10_state.md R16). -/
def State.readable (s : State) : Bool := decide (s.phase = .cp)

/-- The source's Complete(ready, disarmed) (spec/10_state.md R16). -/
def State.final (s : State) : Bool := decide (s.phase = .cp) && !s.armed

/-- The source's Complete-pending-stop (spec/10_state.md R16). -/
def State.pendingStop (s : State) : Bool := decide (s.phase = .cp) && s.armed

/-- `ovf` after one TICK from counter value `t`: set on the wrap from 255, else as it was (spec/40_timer.md R60, R61). -/
def ovfAfterTick (t : Tau) (ovf : Bool) : Bool := if t = 255#8 then true else ovf

end Sys2Proof.Machine
end

