-- ==== Sys2Proof/WellFormed.lean ====
section
/-! DEFINITION. Which terms of Instr are instructions of the table: a classifier row carries a `tau` between the row's
`tau_min` and `tau_max` (spec/30_encoding.md R46, R48, R55); an operation of format EV has no other restriction. -/

namespace Sys2Proof

/-- A classifier row carries a `tau` of its row; every operation is well formed. -/
def Instr.wellFormed (i : Instr) : Bool :=
  match i.row? with
  | some r => r.holdsTau
  | none => true

end Sys2Proof
end

