-- ==== Sys2Proof/Machine/Operands.lean ====
section
/-! DEFINITION. The operand forms: where an EDGE takes its `tau` from (spec/40_timer.md R62, R65), and when a classifier row is
the one the handler would apply. -/

namespace Sys2Proof.Machine

/-- The `tau` of an EDGE: at Level T the tick counter as it is on entry (spec/40_timer.md R62), at Level A the event's own
(spec/40_timer.md R65). -/
def edgeTau (tau : Option Tau) (s : State) : Tau :=
  match tau with
  | none => s.tcnt
  | some t => t

/-- A classifier row is selected: the handler runs (`armed`), in the row's phase, and the word's `tau` is in the row
(spec/42_edge_handler.md R80 to R89, the rules' conditions). -/
def rowSelected (i : Instr) (s : State) : Bool :=
  match i.row? with
  | some r => s.armed && decide (s.phase = r.phase) && r.holdsTau
  | none => false

end Sys2Proof.Machine
end

