-- ==== Sys2Proof/Machine/Ops.lean ====
section
/-! DEFINITION. The named operations over the registers: the updates, the actions of the rules, and the edge interrupt. -/

namespace Sys2Proof.Machine

/-! ### Updates of one register or of registers written together -/

/-- `configured <- b`. -/
def State.setConfigured (s : State) (b : Bool) : State := { s with configured := b }
/-- `armed <- b`. -/
def State.setArmed (s : State) (b : Bool) : State := { s with armed := b }
/-- `phase <- p`. -/
def State.setPhase (s : State) (p : Phase) : State := { s with phase := p }
/-- `acc <- a`, `rem <- r`. -/
def State.setCapture (s : State) (a : Command) (r : Count) : State := { s with acc := a, rem := r }
/-- `tcnt <- t`, `ovf <- o`. -/
def State.setTimer (s : State) (t : Tau) (o : Bool) : State := { s with tcnt := t, ovf := o }
/-- `ok <- b`, `out <- v`: the consumer's cells. -/
def State.setAnswer (s : State) (b : Bool) (v : Command) : State := { s with ok := b, out := v }
/-- The events still to come. -/
def State.setInputs (s : State) (es : List Event) : State := { s with inputs := es }
/-- One more free value drawn. -/
def State.nextDraw (s : State) : State := { s with draws := s.draws + 1 }

/-! ### Actions of the control surface and of the timer -/

/-- START's four writes: `acc <- 0`, `rem <- 32`, `phase <- AP`, `armed <- 1` (spec/41_control_surface.md R71). -/
def State.beginCapture (s : State) : State :=
  (((s.setCapture 0#32 32#8).setPhase .ap).setArmed true)

/-- READ's answer: in phase CP `out <- acc` and `ok <- true`, else `ok <- false` and `out` not written
(spec/41_control_surface.md R73). -/
def State.answerRead (s : State) : State :=
  if s.readable then s.setAnswer true s.acc else s.setAnswer false s.out

/-- One tick: `tcnt <- tcnt + 1` modulo 256, `ovf` set on the wrap (spec/40_timer.md R60, R61). -/
def State.countTick (s : State) : State :=
  s.setTimer (s.tcnt + 1#8) (ovfAfterTick s.tcnt s.ovf)

/-- A tick before INIT: `tcnt` and `ovf` become free values (spec/40_timer.md R60, U3). Log entry 5. -/
def State.drawTimer (s : State) : State :=
  (s.setTimer (Config.freeTcnt s.draws) (Config.freeOvf s.draws)).nextDraw

/-! ### Actions of the edge handler -/

/-- Step 1 of the handler: the counter is cleared and the overflow flag with it (spec/40_timer.md R62, R67). Log entry 6 for
Level A. -/
def State.captureAndReset (s : State) : State := s.setTimer 0#8 false

/-- `acc[k] <- b`: an assignment, the other bits unchanged (spec/42_edge_handler.md R87). -/
def writeBit (a : Command) (k : Nat) (b : Bool) : Command :=
  (a &&& ~~~(1#32 <<< k)) ||| ((if b then 1#32 else 0#32) <<< k)

/-- The phase after a bit: CP when the counter has reached 0, else as it was (spec/42_edge_handler.md R87). -/
def phaseAfterBit (r : Count) (p : Phase) : Phase := if r = 0#8 then .cp else p

/-- The three writes of consume-bit, for `rem >= 1` (spec/42_edge_handler.md R87). -/
def State.takeBit (s : State) (b : Bool) : State :=
  (s.setCapture (writeBit s.acc (s.rem - 1#8).toNat b) (s.rem - 1#8)).setPhase (phaseAfterBit (s.rem - 1#8) s.phase)

/-- The consume-bit action, with the model's fault at `rem = 0` (spec/42_edge_handler.md R87, U1). -/
def consumeBit (b : Bool) (s : State) : Result :=
  if s.rem = 0#8 then .fault .bitCounterUnderflow else .next (s.takeBit b)

/-- `phase <- p`, the action of PRE, GAP, RPT and X (spec/42_edge_handler.md R82, R83, R84, R89). -/
def goto (p : Phase) (s : State) : Result := .next (s.setPhase p)

/-- `armed <- 0`, the action of FIN (spec/42_edge_handler.md R88). -/
def finalize (s : State) : Result := .next (s.setArmed false)

/-- The action a symbol selects (spec/42_edge_handler.md R81, step 3). -/
def symbolAction : Symbol → State → Result
  | .pre => goto .ag
  | .gap => goto .rb
  | .rpt => goto .cp
  | .b0 => consumeBit false
  | .b1 => consumeBit true
  | .fin => finalize
  | .x => goto .ap

/-- RETURN FROM THE HANDLER: the step ends after its one action; nothing is restored and nothing is re-enabled, so the result
of the action is the result of the step (spec/60_exceptions.md R108). -/
def returnFromEdge (r : Result) : Result := r

/-- TAKING THE EDGE INTERRUPT, the block's one exception (spec/60_exceptions.md R102, R107; spec/42_edge_handler.md R80, R81):
unobserved while disarmed; else capture and reset, classify on the phase held on entry, and one action. Nothing is saved. -/
def takeEdgeInterrupt (level : Level) (tau : Option Tau) (s : State) : Result :=
  if s.armed then
    returnFromEdge (symbolAction (classify s.phase level (edgeTau tau s)) s.captureAndReset)
  else .next s

/-- A classifier row as an instruction: its action where its condition holds, else refused by name. Log entry 8. -/
def applyRow (i : Instr) (action : State → Result) (s : State) : Result :=
  if rowSelected i s then action s else .refused .rowNotSelected

end Sys2Proof.Machine
end

