-- ==== Sys2Proof/Machine/ControlSurface.lean ====
section
/-! DEFINITION. The control surface: INIT, START, STOP, READ (spec/41_control_surface.md). -/

namespace Sys2Proof.Machine

/-- INIT (R70): `configured <- 1`, `armed <- 0`; a second INIT is refused. -/
def execInit (s : State) : Result :=
  if s.configured then .refused .secondInit else .next ((s.setConfigured true).setArmed false)

/-- START (R71): begin or restart a capture; refused before INIT (R76). -/
def execStart (s : State) : Result :=
  if s.configured then .next s.beginCapture else .refused .beforeInit

/-- STOP (R72): `armed <- 0`; refused before INIT (R76). -/
def execStop (s : State) : Result :=
  if s.configured then .next (s.setArmed false) else .refused .beforeInit

/-- READ (R73): the answer goes to the consumer's cells; refused before INIT (R76). -/
def execRead (s : State) : Result :=
  if s.configured then .next s.answerRead else .refused .beforeInit

end Sys2Proof.Machine
end

