-- ==== Sys2Proof/Machine/EdgeHandler.lean ====
section
/-! DEFINITION. EDGE and the eighteen classifier rows the handler dispatches to (spec/42_edge_handler.md). -/

namespace Sys2Proof.Machine

/-- EDGE (R80, R81). -/
def execEdge (level : Level) (tau : Option Tau) (s : State) : Result := takeEdgeInterrupt level tau s

/-- PRE (R82): `phase <- AG`. -/
def execPre (tau : Tau) (s : State) : Result := applyRow (.pre tau) (goto .ag) s
/-- GAP (R83): `phase <- RB`. -/
def execGap (tau : Tau) (s : State) : Result := applyRow (.gap tau) (goto .rb) s
/-- RPT (R84): `phase <- CP`. -/
def execRpt (tau : Tau) (s : State) : Result := applyRow (.rpt tau) (goto .cp) s
/-- B0 (R85): consume a bit of value 0. -/
def execB0 (tau : Tau) (s : State) : Result := applyRow (.b0 tau) (consumeBit false) s
/-- B1 (R86): consume a bit of value 1. -/
def execB1 (tau : Tau) (s : State) : Result := applyRow (.b1 tau) (consumeBit true) s
/-- FIN (R88): `armed <- 0`. -/
def execFin (tau : Tau) (s : State) : Result := applyRow (.fin tau) finalize s

/-- X_AP_L (R89, R48): `phase <- AP`. -/
def execXApL (tau : Tau) (s : State) : Result := applyRow (.xApL tau) (goto .ap) s
/-- X_AP_H_LO (R89, R48): `phase <- AP`. -/
def execXApHLo (tau : Tau) (s : State) : Result := applyRow (.xApHLo tau) (goto .ap) s
/-- X_AP_H_HI (R89, R48): `phase <- AP`. -/
def execXApHHi (tau : Tau) (s : State) : Result := applyRow (.xApHHi tau) (goto .ap) s
/-- X_AG_L_A (R89, R48): `phase <- AP`. -/
def execXAgLA (tau : Tau) (s : State) : Result := applyRow (.xAgLA tau) (goto .ap) s
/-- X_AG_L_B (R89, R48): `phase <- AP`. -/
def execXAgLB (tau : Tau) (s : State) : Result := applyRow (.xAgLB tau) (goto .ap) s
/-- X_AG_L_C (R89, R48): `phase <- AP`. -/
def execXAgLC (tau : Tau) (s : State) : Result := applyRow (.xAgLC tau) (goto .ap) s
/-- X_AG_H (R89, R48): `phase <- AP`. -/
def execXAgH (tau : Tau) (s : State) : Result := applyRow (.xAgH tau) (goto .ap) s
/-- X_RB_L_A (R89, R48): `phase <- AP`. -/
def execXRbLA (tau : Tau) (s : State) : Result := applyRow (.xRbLA tau) (goto .ap) s
/-- X_RB_L_B (R89, R48): `phase <- AP`. -/
def execXRbLB (tau : Tau) (s : State) : Result := applyRow (.xRbLB tau) (goto .ap) s
/-- X_RB_L_C (R89, R48): `phase <- AP`. -/
def execXRbLC (tau : Tau) (s : State) : Result := applyRow (.xRbLC tau) (goto .ap) s
/-- X_RB_H (R89, R48): `phase <- AP`. -/
def execXRbH (tau : Tau) (s : State) : Result := applyRow (.xRbH tau) (goto .ap) s
/-- X_CP_L (R89, R48): `phase <- AP`. -/
def execXCpL (tau : Tau) (s : State) : Result := applyRow (.xCpL tau) (goto .ap) s

end Sys2Proof.Machine
end

