-- ==== Sys2Proof/Machine/Timer.lean ====
section
/-! DEFINITION. The tick counter's event TICK (spec/40_timer.md). -/

namespace Sys2Proof.Machine

/-- TICK (R60, R61): one count after INIT; before INIT any value for the counter (U3). -/
def execTick (s : State) : Result :=
  if s.configured then .next s.countTick else .next s.drawTimer

end Sys2Proof.Machine
end

