-- ==== Sys2Proof/Machine/Dispatch.lean ====
section
/-! DEFINITION. exec: one arm for each constructor of Instr, each one direct call of its meaning. -/

namespace Sys2Proof.Machine

open Sys2Proof

def exec (i : Instr) (s : State) : Host.Outcome State Fault Refusal :=
  match i with
  -- the six matched symbols
  | .pre tau => Sys2Proof.Machine.execPre tau s
  | .gap tau => Sys2Proof.Machine.execGap tau s
  | .rpt tau => Sys2Proof.Machine.execRpt tau s
  | .b0 tau => Sys2Proof.Machine.execB0 tau s
  | .b1 tau => Sys2Proof.Machine.execB1 tau s
  | .fin tau => Sys2Proof.Machine.execFin tau s
  -- the twelve no-match regions
  | .xApL tau => Sys2Proof.Machine.execXApL tau s
  | .xApHLo tau => Sys2Proof.Machine.execXApHLo tau s
  | .xApHHi tau => Sys2Proof.Machine.execXApHHi tau s
  | .xAgLA tau => Sys2Proof.Machine.execXAgLA tau s
  | .xAgLB tau => Sys2Proof.Machine.execXAgLB tau s
  | .xAgLC tau => Sys2Proof.Machine.execXAgLC tau s
  | .xAgH tau => Sys2Proof.Machine.execXAgH tau s
  | .xRbLA tau => Sys2Proof.Machine.execXRbLA tau s
  | .xRbLB tau => Sys2Proof.Machine.execXRbLB tau s
  | .xRbLC tau => Sys2Proof.Machine.execXRbLC tau s
  | .xRbH tau => Sys2Proof.Machine.execXRbH tau s
  | .xCpL tau => Sys2Proof.Machine.execXCpL tau s
  -- the control surface
  | .init => Sys2Proof.Machine.execInit s
  | .start => Sys2Proof.Machine.execStart s
  | .stop => Sys2Proof.Machine.execStop s
  | .read => Sys2Proof.Machine.execRead s
  -- the timer and the line
  | .tick => Sys2Proof.Machine.execTick s
  | .edge level tau => Sys2Proof.Machine.execEdge level tau s

end Sys2Proof.Machine
end

