-- ==== Sys2Proof/Machine/Fetch.lean ====
section
/-! DEFINITION. Where the next instruction comes from: the oldest pending event. The block fetches nothing (spec/20_memory.md
R39); the environment delivers event words. -/

namespace Sys2Proof.Machine

/-- The event a step takes: the oldest pending one, with the state that holds the rest (spec/60_exceptions.md R106 b). -/
def State.takeEvent (s : State) : Option (Event × State) :=
  match s.inputs with
  | [] => none
  | e :: rest => some (e, s.setInputs rest)

/-- `e` arrives: it is the next event the block takes. -/
def State.deliver (e : Event) (s : State) : State := s.setInputs (e :: s.inputs)

/-- Everything that makes the handler form the classifier word `cw` next: the block configured and armed, in the word's phase,
and an edge of the word's level whose `tau` is the word's (spec/30_encoding.md R42, spec/42_edge_handler.md R80, R81). -/
def State.deliverClassifier (cw : Word11) (s : State) : State :=
  (((s.setConfigured true).setArmed true).setPhase (phaseOfCode (topField cw))).deliver
    ⟨.levelA, edgeWord (levelField cw) (tauField cw)⟩

/-- The code of a bare number placed so that the next step runs it. -/
def State.deliverCode (c : Code) (s : State) : State :=
  match c with
  | .event e => s.deliver e
  | .classifier cw => s.deliverClassifier cw

/-- A word that spells no event (kind 3), put where a number has bits above bit 10. -/
def noEvent : Event := ⟨.levelT, 0x600#11⟩

/-- The number `w` placed so that the next step runs what `decodeTableWord` reads from it. Log entry 7. -/
def State.placeNumber (s : State) (w : Nat) : State :=
  if w < 2048 then s.deliverCode (codeOfNumber (BitVec.ofNat 11 w)) else s.deliver noEvent

end Sys2Proof.Machine
end

