-- ==== Sys2Proof/Machine/Step.lean ====
section
/-! DEFINITION. The step: take the oldest pending event, decode it, execute it. -/

namespace Sys2Proof.Machine

/-- One step (spec/00_scope.md R4): with no event pending the block is idle (spec/60_exceptions.md R113, log entry 4); a word
that spells no event is refused (spec/30_encoding.md R53); else the event's instruction is executed. -/
def step (s : State) : Host.Outcome State Fault Refusal :=
  match s.takeEvent with
  | none => .next s
  | some (e, s') =>
    match decodeEvent e with
    | .ok i => exec i s'
    | .error r => .refused (.noSuchEvent r)

/-- `s` with the number `w` of the opcode table placed so that the next step runs it (log entry 7). -/
def State.withFetchWord (s : State) (_nbits w : Nat) : State := s.placeNumber w

end Sys2Proof.Machine
end

