-- ==== Sys2Proof/Machine/Trace.lean ====
section
/-! DEFINITION. Event traces (spec/30_encoding.md R54): events delivered one at a time, each followed by one step, and the
frames of R50 as lists of events. -/

namespace Sys2Proof.Machine

/-! ### Running events -/

/-- The environment delivers `e` and the machine takes one step: the atomic step of spec/00_scope.md R4. -/
def stepEvent (e : Event) (s : State) : Result := step (s.deliver e)

/-- The events one after another; the first fault or refusal ends the run (spec/20_memory.md R36). -/
def runEvents : List Event → State → Result
  | [], s => .next s
  | e :: es, s =>
    match stepEvent e s with
    | .next s' => runEvents es s'
    | .fault f => .fault f
    | .refused r => .refused r

/-! ### Written events (R54) -/

/-- `INIT`. -/
def evInit : Event := ⟨.levelT, 0x000#11⟩
/-- `START`. -/
def evStart : Event := ⟨.levelT, 0x001#11⟩
/-- `STOP`. -/
def evStop : Event := ⟨.levelT, 0x002#11⟩
/-- `READ`. -/
def evRead : Event := ⟨.levelT, 0x003#11⟩
/-- `TICK`. -/
def evTick : Event := ⟨.levelT, 0x200#11⟩
/-- `E(l)`, Level T. -/
def evEdgeT (l : Level) : Event := ⟨.levelT, edgeWord l 0#8⟩
/-- `E(l,t)`, Level A. -/
def evEdge (l : Level) (t : Tau) : Event := ⟨.levelA, edgeWord l t⟩
/-- `TICK*n`. -/
def evTicks (n : Nat) : List Event := List.replicate n evTick

/-! ### Frames (R50, R54) -/

/-- The `n` bit edges of a frame, bit `n-1` first and bit 0 last; `tBit i` is the interval of bit `i`. -/
def bitEdges (tBit : Nat → Tau) : Nat → List Event
  | 0 => []
  | n + 1 => evEdge .low (tBit n) :: bitEdges tBit n

/-- PRE, GAP and the first `n` bit edges of a frame whose bits stand at `n-1 .. 0` of `tBit`. -/
def frameHead (tPre tGap : Tau) (tBit : Nat → Tau) (n : Nat) : List Event :=
  evEdge .high tPre :: evEdge .low tGap :: bitEdges tBit n

/-- A data frame: preamble end, gap, 32 bit edges, stop edge (R50). -/
def dataFrame (tPre tGap : Tau) (tBit : Nat → Tau) (tStop : Tau) : List Event :=
  frameHead tPre tGap tBit 32 ++ [evEdge .high tStop]

/-- The intervals of `FRAME(x, t0, t1)`. -/
def bitTaus (x : Command) (t0 t1 : Tau) (i : Nat) : Tau := if x.getLsbD i then t1 else t0

/-- `FRAME(x, t0, t1)` (R54). -/
def frame (x : Command) (t0 t1 : Tau) : List Event := dataFrame 140#8 70#8 (bitTaus x t0 t1) 9#8

/-- A repeat frame: preamble end, repeat gap, stop edge (R50). -/
def repeatFrame (tPre tRpt tStop : Tau) : List Event :=
  [evEdge .high tPre, evEdge .low tRpt, evEdge .high tStop]

/-- The intervals `tBit` spell bits `n-1 .. 0` of `x`: each lies in the window of its bit (spec/30_encoding.md R46, R51). -/
def Spells (x : Command) (tBit : Nat → Tau) (n : Nat) : Prop :=
  ∀ i, i < n → (if x.getLsbD i then inOneWindow (tBit i) else inZeroWindow (tBit i)) = true

/-- Edges given by level and `tau`. -/
def edgeEvents (es : List (Level × Tau)) : List Event := es.map fun e => evEdge e.1 e.2

/-! ### Level A (spec/40_timer.md R65) -/

/-- The state after one event, or the same state where the event stops the machine. -/
def afterEvent (e : Event) (s : State) : State :=
  match stepEvent e s with
  | .next s' => s'
  | .fault _ => s
  | .refused _ => s

/-- The Level A event that stands for a Level T event in state `s`: no event for TICK, and an EDGE carrying the `tau` that
capture-and-reset would read. A word that spells no event stays as it is. -/
def abstractEvent (e : Event) (s : State) : List Event :=
  match decodeEvent e with
  | .ok .tick => []
  | .ok (.edge l t) => [evEdge l (edgeTau t s)]
  | .ok _ => [⟨.levelA, e.word⟩]
  | .error _ => [e]

/-- The Level A trace of a Level T run from `s` (spec/40_timer.md R65). -/
def abstractTrace : List Event → State → List Event
  | [], _ => []
  | e :: es, s => abstractEvent e s ++ abstractTrace es (afterEvent e s)

end Sys2Proof.Machine
end

