-- ==== Sys2Proof/Safety.lean ====
section
/-! DEFINITION. The terms claims are stated in: the invariant, the power-on states, what each level and each observer sees. -/

namespace Sys2Proof.Machine

/-- A state right after power-on: `configured = 0`, `armed = 0`, every other register at any value (spec/10_state.md R24,
spec/70_reset_and_hazards.md R120). -/
abbrev State.PowerOn (s : State) : Prop := s.configured = false ∧ s.armed = false

/-- The low `rem` bits of `acc`, the positions still to be received, are 0. -/
abbrev State.PendingBitsZero (s : State) : Prop := ∀ i, i < s.rem.toNat → s.acc.getLsbD i = false

/-- The invariant: only a configured block is armed, `rem` is legal (spec/10_state.md R26 a), and the positions of `acc` still
to be received are 0. -/
abbrev State.Inv (s : State) : Prop :=
  (s.armed = true → s.configured = true) ∧ s.rem.toNat ≤ 32 ∧ s.PendingBitsZero

/-- What a Level A model keeps (spec/10_state.md R10), with the consumer's cells: everything but the timer, the events to come
and the draws. -/
structure LevelAState where
  configured : Bool
  armed : Bool
  phase : Phase
  acc : Command
  rem : Count
  out : Command
  ok : Bool
  deriving DecidableEq, Repr

/-- The Level A view of a state. -/
def State.levelA (s : State) : LevelAState := ⟨s.configured, s.armed, s.phase, s.acc, s.rem, s.out, s.ok⟩

/-- The state with the overflow flag forgotten. -/
def State.forgetOvf (s : State) : State := { s with ovf := false }

/-- A result seen through a view of its next state; faults and refusals stay as they are. -/
def mapNext {α : Type} (f : State → α) : Result → Host.Outcome α Fault Refusal
  | .next s => .next (f s)
  | .fault x => .fault x
  | .refused r => .refused r

/-- The classifier words of a row are exactly the range `lo .. hi` (the cw columns of spec/30_encoding.md R46, R48). -/
def CodedAs (lo hi : Nat) (row : Tau → Instr) : Prop :=
  ∀ cw : Word11, (lo ≤ cw.toNat ∧ cw.toNat ≤ hi) ↔ decodeClassifier cw = row (tauField cw)

/-- Every edge's level is the opposite of the one before it; `prev` is the level of the edge before the list (ENV_ALT,
spec/92_eei_decisions.md D15). -/
def Alternates : Level → List (Level × Tau) → Prop
  | _, [] => True
  | prev, e :: es => e.1 ≠ prev ∧ Alternates e.1 es

end Sys2Proof.Machine
end

