-- ==== Sys2Proof/Certificates/Slice0/Obligations.lean ====
section
/-! DEFINITION. The statements for the provers, file by file of the spec. `s`, `t` are states, `i` an instruction; a next state
is written out as a record, so that everything it does not name is unchanged. -/

open Sys2Proof Sys2Proof.Machine

/-! ### Encoding (spec/30_encoding.md) -/

/-- Decoding the code of a well-formed instruction gives it back, with every operand at every value. -/
def Obligations.DecodeOfEncodeIsIdentity : Prop :=
  ∀ i : Instr, i.wellFormed = true → decode (encode i) = .ok i

/-- Encoding what a word decodes to gives the word back: every classifier word, and every event word at the level its
instruction is encoded at. -/
def Obligations.EncodeOfDecodeIsIdentity : Prop :=
  (∀ cw : Word11, encode (decodeClassifier cw) = .classifier cw ∧ (decodeClassifier cw).wellFormed = true) ∧
  (∀ (w : Word11) (i : Instr), decodeEvent ⟨.levelT, w⟩ = .ok i → encode i = .event ⟨.levelT, w⟩) ∧
  (∀ (w : Word11) (l : Level) (t : Option Tau), decodeEvent ⟨.levelA, w⟩ = .ok (.edge l t) →
    encode (.edge l t) = .event ⟨.levelA, w⟩)

/-- R41's fixed words: each spells its event (the control operations at both levels, TICK at Level T, EDGE at both). -/
def Obligations.FixedEventWordsDecode : Prop :=
  (∀ f : Iface,
    decodeEvent ⟨f, 0x000#11⟩ = .ok .init ∧ decodeEvent ⟨f, 0x001#11⟩ = .ok .start ∧
    decodeEvent ⟨f, 0x002#11⟩ = .ok .stop ∧ decodeEvent ⟨f, 0x003#11⟩ = .ok .read) ∧
  decodeEvent ⟨.levelT, 0x200#11⟩ = .ok .tick ∧
  decodeEvent ⟨.levelT, 0x400#11⟩ = .ok (.edge .low none) ∧
  decodeEvent ⟨.levelT, 0x500#11⟩ = .ok (.edge .high none) ∧
  (∀ t : Tau,
    decodeEvent ⟨.levelA, 0x400#11 + t.setWidth 11⟩ = .ok (.edge .low (some t)) ∧
    decodeEvent ⟨.levelA, 0x500#11 + t.setWidth 11⟩ = .ok (.edge .high (some t)))

/-- R53: a step refuses every reserved event word, and runs on or stops at exec for every other word of Level T; every classifier
word has a symbol. -/
def Obligations.ReservedEventWordsRefused : Prop :=
  (∀ (s : State) (e : Event) (rest : List Event), s.inputs = e :: rest →
    (0x600 ≤ e.word.toNat ∨ (0x004 ≤ e.word.toNat ∧ e.word.toNat ≤ 0x1FF) ∨
      (0x201 ≤ e.word.toNat ∧ e.word.toNat ≤ 0x3FF) ∨
      (e.iface = .levelT ∧ 0x400 ≤ e.word.toNat ∧ e.word.toNat % 256 ≠ 0)) →
    ∃ r : Reject, step s = .refused (.noSuchEvent r)) ∧
  (∀ w : Word11, w.toNat ∈ [0x000, 0x001, 0x002, 0x003, 0x200, 0x400, 0x500] →
    ∃ i : Instr, decodeEvent ⟨.levelT, w⟩ = .ok i) ∧
  (∀ cw : Word11, ∃ i : Instr, decode (.classifier cw) = .ok i ∧ i.symbol?.isSome = true)

/-- R40, R65: TICK does not exist at Level A, where its word is refused by name (log entry 13). -/
def Obligations.TickWordRefusedAtLevelA : Prop :=
  ∀ (s : State) (rest : List Event), s.inputs = ⟨.levelA, 0x200#11⟩ :: rest →
    step s = .refused (.noSuchEvent .tickAtLevelA)

/-- R46: the classifier's table, each symbol by the integers of its row, X for every other triple. -/
def Obligations.ClassifierTable : Prop :=
  ∀ (p : Phase) (l : Level) (t : Tau),
    (classify p l t = .pre ↔ p = .ap ∧ l = .high ∧ 121 ≤ t.toNat ∧ t.toNat ≤ 159) ∧
    (classify p l t = .gap ↔ p = .ag ∧ l = .low ∧ 61 ≤ t.toNat ∧ t.toNat ≤ 79) ∧
    (classify p l t = .rpt ↔ p = .ag ∧ l = .low ∧ 31 ≤ t.toNat ∧ t.toNat ≤ 39) ∧
    (classify p l t = .b0 ↔ p = .rb ∧ l = .low ∧ 6 ≤ t.toNat ∧ t.toNat ≤ 9) ∧
    (classify p l t = .b1 ↔ p = .rb ∧ l = .low ∧ 21 ≤ t.toNat ∧ t.toNat ≤ 29) ∧
    (classify p l t = .fin ↔ p = .cp ∧ l = .high) ∧
    (classify p l t = .x ↔
      ¬(p = .ap ∧ l = .high ∧ 121 ≤ t.toNat ∧ t.toNat ≤ 159) ∧
      ¬(p = .ag ∧ l = .low ∧ 61 ≤ t.toNat ∧ t.toNat ≤ 79) ∧
      ¬(p = .ag ∧ l = .low ∧ 31 ≤ t.toNat ∧ t.toNat ≤ 39) ∧
      ¬(p = .rb ∧ l = .low ∧ 6 ≤ t.toNat ∧ t.toNat ≤ 9) ∧
      ¬(p = .rb ∧ l = .low ∧ 21 ≤ t.toNat ∧ t.toNat ≤ 29) ∧
      ¬(p = .cp ∧ l = .high))

/-- R55, R49: every classifier word belongs to exactly one CW row of the opcode table (mask, match, `tau_min`, `tau_max`), the one
it decodes to, and that row stands for the symbol the classifier's windows give. -/
def Obligations.RowsPartitionClassifierWords : Prop :=
  ∀ cw : Word11,
    (∀ i : Instr,
      (∃ r : Row, i.row? = some r ∧ cw &&& i.maskMatch.1 = i.maskMatch.2 ∧ r.tau = tauField cw ∧
        r.tauMin ≤ (tauField cw).toNat ∧ (tauField cw).toNat ≤ r.tauMax) ↔
      i = decodeClassifier cw) ∧
    (decodeClassifier cw).symbol? = some (classify (phaseOfCode (topField cw)) (levelField cw) (tauField cw))

/-! ### The step (spec/00_scope.md, spec/20_memory.md) -/

/-- A step runs the instruction the oldest pending event word decodes to, on the state that holds the other events. -/
def Obligations.StepRunsTheDecodedEvent : Prop :=
  ∀ (s : State) (e : Event) (rest : List Event) (i : Instr),
    s.inputs = e :: rest → decodeEvent e = .ok i → step s = exec i { s with inputs := rest }

/-- With no event pending the block is idle: the model's reading of R113, log entry 4. -/
def Obligations.StepWithoutEventIsIdle : Prop :=
  ∀ s : State, s.inputs = [] → step s = .next s

/-- R36: queued events are applied one after another, each to the state left by the event before it. -/
def Obligations.QueuedEventsRunInOrder : Prop :=
  ∀ (es : List Event) (s : State),
    Host.Core.run Sys2Proof.core es.length { s with inputs := es ++ s.inputs } = runEvents es s

/-- R55, R81: an observed edge clears the timer, forms the classifier word of the phase on entry and applies the one row that
holds it. R62 and R81 give the cleared timer at Level T; the clearing of it at a Level A edge is the model's choice, log entry 6. -/
def Obligations.ObservedEdgeAppliesItsRow : Prop :=
  ∀ (s : State) (l : Level) (t : Option Tau), s.armed = true →
    exec (.edge l t) s =
      exec (decodeClassifier (classifierWord s.phase l (edgeTau t s))) { s with tcnt := 0#8, ovf := false }

/-- The model's convention of log entry 7: a bare number that decodes, placed by `withFetchWord`, is run by the very next step: an
operation on the state as it was, a classifier row by the edge that forms its word in the armed block, after capture and
reset. The edge placed is a Level A edge, and that it clears the timer is the model's choice, log entry 6. -/
def Obligations.PlacedNumberIsRunNext : Prop :=
  ∀ (s : State) (nbits w : Nat) (i : Instr), decodeTableWord nbits w = some i →
    (i.row? = none → step (s.withFetchWord nbits w) = exec i s) ∧
    (∀ r : Row, i.row? = some r →
      step (s.withFetchWord nbits w) =
        exec i { s with configured := true, armed := true, phase := r.phase, tcnt := 0#8, ovf := false })

/-! ### Control surface (spec/41_control_surface.md) -/

/-- R70: INIT configures and disarms, and writes nothing else; a second INIT is refused. -/
def Obligations.InitConfiguresOnce : Prop :=
  ∀ s : State,
    (s.configured = false → exec .init s = .next { s with configured := true, armed := false }) ∧
    (s.configured = true → exec .init s = .refused .secondInit)

/-- R71: START gives the same four values in any configured state, touches nothing else, and is idempotent; before INIT it is
refused. -/
def Obligations.StartBeginsACapture : Prop :=
  ∀ s : State,
    (s.configured = false → exec .start s = .refused .beforeInit) ∧
    (s.configured = true →
      exec .start s = .next { s with acc := 0#32, rem := 32#8, phase := .ap, armed := true } ∧
      runEvents [evStart, evStart] s = runEvents [evStart] s)

/-- R72: STOP clears `armed` and writes nothing else; what READ then answers is what it answered before; any number of edges
after it, at either level of description, changes nothing; before INIT it is refused. -/
def Obligations.StopOnlyDisarms : Prop :=
  ∀ s : State,
    (s.configured = false → exec .stop s = .refused .beforeInit) ∧
    (s.configured = true →
      exec .stop s = .next { s with armed := false } ∧
      (s.pendingStop = true → ({ s with armed := false } : State).final = true) ∧
      runEvents [evStop, evRead] s = runEvents [evRead, evStop] s ∧
      ∀ es : List (Level × Option Tau),
        runEvents (evStop :: es.map fun e => match e with
          | (l, none) => evEdgeT l
          | (l, some t) => evEdge l t) s = .next { s with armed := false })

/-- R73: READ answers true with all of `acc` iff `phase = CP`, whatever `armed` is, else false with `out` not written; no
field of the block is written; before INIT it is refused. -/
def Obligations.ReadAnswersByPhase : Prop :=
  ∀ s : State,
    (s.configured = false → exec .read s = .refused .beforeInit) ∧
    (s.configured = true →
      (s.phase = .cp → exec .read s = .next { s with out := s.acc, ok := true }) ∧
      (s.phase ≠ .cp → exec .read s = .next { s with ok := false }))

/-- R35: any number of READs in a row leaves what one READ leaves, and writes nothing but the consumer's cells. -/
def Obligations.RepeatedReadsAgree : Prop :=
  ∀ (s : State) (n : Nat), s.configured = true →
    runEvents (List.replicate (n + 1) evRead) s = runEvents [evRead] s ∧
    ∃ (o : Command) (k : Bool), runEvents (List.replicate n evRead) s = .next { s with out := o, ok := k }

/-- R76: before INIT the model refuses START, STOP and READ, and (at power-on) an EDGE is unobserved. -/
def Obligations.ControlBeforeInitRefused : Prop :=
  ∀ s : State, s.PowerOn →
    exec .start s = .refused .beforeInit ∧ exec .stop s = .refused .beforeInit ∧
    exec .read s = .refused .beforeInit ∧ ∀ (l : Level) (t : Option Tau), exec (.edge l t) s = .next s

/-- R19: `configured` is set by INIT and never cleared. -/
def Obligations.ConfiguredIsSetByInitOnly : Prop :=
  ∀ (i : Instr) (s t : State), exec i s = .next t →
    (t.configured = true ↔ s.configured = true ∨ i = .init)

/-! ### Tick counter (spec/40_timer.md) -/

/-- R60, R61: after INIT a TICK counts modulo 256 and sets `ovf` on the wrap only. -/
def Obligations.TickCounts : Prop :=
  ∀ s : State, s.configured = true →
    (s.tcnt.toNat < 255 → ∃ c : Tau, c.toNat = s.tcnt.toNat + 1 ∧ exec .tick s = .next { s with tcnt := c }) ∧
    (s.tcnt.toNat = 255 → exec .tick s = .next { s with tcnt := 0#8, ovf := true })

/-- U3: a TICK before INIT completes; nothing is said of `tcnt` and `ovf`, which are free values, and nothing but them (and the
model's draw counter) changes. Log entry 5. -/
def Obligations.TickBeforeInitIsFree : Prop :=
  ∀ s : State, s.configured = false →
    ∃ (c : Tau) (o : Bool) (n : Nat), exec .tick s = .next { s with tcnt := c, ovf := o, draws := n }

/-- R63, and R54's line for `T(n) E(l)`: `n` ticks after the counter was cleared an edge carries `tau = n mod 256`; the ticks
themselves move only the timer. The equality of whole states with the Level A edge rests on the model's choice that such an edge
also clears `tcnt` and `ovf`, log entry 6. -/
def Obligations.TauIsTicksModulo256 : Prop :=
  ∀ (s : State) (n : Nat) (l : Level), s.configured = true → s.tcnt = 0#8 →
    (∃ o : Bool, runEvents (evTicks n) s = .next { s with tcnt := BitVec.ofNat 8 n, ovf := o }) ∧
    (s.armed = true → runEvents (evTicks n ++ [evEdgeT l]) s = runEvents [evEdge l (BitVec.ofNat 8 (n % 256))] s)

/-- R123: an interval of `n + 256` ticks is taken exactly as one of `n` ticks. -/
def Obligations.IntervalsAlias : Prop :=
  ∀ (s : State) (n : Nat) (l : Level), s.configured = true → s.armed = true →
    runEvents (evTicks (n + 256) ++ [evEdgeT l]) s = runEvents (evTicks n ++ [evEdgeT l]) s

/-- R64, R17: only TICK and an observed EDGE touch the timer, and the edge clears it (R62 at Level T; at Level A the model's
choice, log entry 6). -/
def Obligations.OnlyTickAndObservedEdgeMoveTimer : Prop :=
  ∀ (i : Instr) (s t : State), exec i s = .next t → ¬(t.tcnt = s.tcnt ∧ t.ovf = s.ovf) →
    i = .tick ∨ ∃ (l : Level) (tau : Option Tau), i = .edge l tau ∧ s.armed = true ∧ t.tcnt = 0#8 ∧ t.ovf = false

/-- R18: no rule reads `ovf`: its value changes nothing but itself. -/
def Obligations.OverflowFlagIsReadByNothing : Prop :=
  ∀ (i : Instr) (s : State),
    mapNext State.forgetOvf (exec i s.forgetOvf) = mapNext State.forgetOvf (exec i s)

/-! ### Edge handler (spec/42_edge_handler.md) -/

/-- R80, R104: an edge while disarmed changes no field. -/
def Obligations.UnobservedEdgeChangesNothing : Prop :=
  ∀ (s : State) (l : Level) (t : Option Tau), s.armed = false → exec (.edge l t) s = .next s

/-- R91: the transition table of the handler. `tau` is the counter at Level T, the event's at Level A; the bit rows
are R87, its fault included. Every observed edge also clears the timer: R62, R90 at Level T; at Level A, which has no timer by R65,
that is the model's choice, log entry 6. -/
def Obligations.HandlerTransitionTable : Prop :=
  (∀ (s : State) (l : Level) (o : Option Tau), s.armed = false → exec (.edge l o) s = .next s) ∧
  ∀ (s : State) (l : Level) (o : Option Tau) (n : Nat), s.armed = true → (edgeTau o s).toNat = n →
    (s.phase = .ap →
      if l = .high ∧ 121 ≤ n ∧ n ≤ 159 then
        exec (.edge l o) s = .next { s with phase := .ag, tcnt := 0#8, ovf := false }
      else exec (.edge l o) s = .next { s with phase := .ap, tcnt := 0#8, ovf := false }) ∧
    (s.phase = .ag →
      if l = .low ∧ 61 ≤ n ∧ n ≤ 79 then
        exec (.edge l o) s = .next { s with phase := .rb, tcnt := 0#8, ovf := false }
      else if l = .low ∧ 31 ≤ n ∧ n ≤ 39 then
        exec (.edge l o) s = .next { s with phase := .cp, tcnt := 0#8, ovf := false }
      else exec (.edge l o) s = .next { s with phase := .ap, tcnt := 0#8, ovf := false }) ∧
    (s.phase = .rb →
      if l = .low ∧ ((6 ≤ n ∧ n ≤ 9) ∨ (21 ≤ n ∧ n ≤ 29)) then
        (s.rem.toNat = 0 → exec (.edge l o) s = .fault .bitCounterUnderflow) ∧
        (1 ≤ s.rem.toNat →
          ∃ (a : Command) (r : Count), r.toNat = s.rem.toNat - 1 ∧
            (∀ j, j < 32 → a.getLsbD j = if j = r.toNat then decide (21 ≤ n) else s.acc.getLsbD j) ∧
            exec (.edge l o) s = .next { s with
              acc := a, rem := r, phase := if r.toNat = 0 then .cp else .rb, tcnt := 0#8, ovf := false })
      else exec (.edge l o) s = .next { s with phase := .ap, tcnt := 0#8, ovf := false }) ∧
    (s.phase = .cp →
      if l = .high then
        exec (.edge l o) s = .next { s with armed := false, tcnt := 0#8, ovf := false }
      else exec (.edge l o) s = .next { s with phase := .ap, tcnt := 0#8, ovf := false })

/-- R82: PRE writes `phase <- AG` and nothing else; 120 and 160 are X, and so is every low-level edge in AP. -/
def Obligations.PreRowEntersAwaitingGap : Prop :=
  (∀ (s : State) (t : Tau), s.armed = true → s.phase = .ap → 120 < t.toNat → t.toNat < 160 →
    exec (.pre t) s = .next { s with phase := .ag }) ∧
  (∀ t : Tau, t.toNat ≤ 120 ∨ 160 ≤ t.toNat → classify .ap .high t = .x) ∧
  (∀ t : Tau, classify .ap .low t = .x) ∧
  CodedAs 0x179 0x19F .pre

/-- R83: GAP writes `phase <- RB` and nothing else; 60, 80, and 40 to 60 are X, and so is every high-level edge in AG. -/
def Obligations.GapRowEntersReceivingBits : Prop :=
  (∀ (s : State) (t : Tau), s.armed = true → s.phase = .ag → 60 < t.toNat → t.toNat < 80 →
    exec (.gap t) s = .next { s with phase := .rb }) ∧
  (∀ t : Tau, (40 ≤ t.toNat ∧ t.toNat ≤ 60) ∨ 80 ≤ t.toNat → classify .ag .low t = .x) ∧
  (∀ t : Tau, classify .ag .high t = .x) ∧
  CodedAs 0x23D 0x24F .gap

/-- R84: RPT writes `phase <- CP` and nothing else (`acc`, `rem` and `armed` as they were): the state reached is pending-stop, where
READ already answers true with the resident `acc`, and the next high-level edge is FIN. -/
def Obligations.RptRowEntersComplete : Prop :=
  (∀ (s : State) (t : Tau), s.armed = true → s.phase = .ag → 30 < t.toNat → t.toNat < 40 →
    exec (.rpt t) s = .next { s with phase := .cp } ∧
    ({ s with phase := .cp } : State).pendingStop = true ∧ ({ s with phase := .cp } : State).readable = true ∧
    (s.configured = true →
      runEvents [evRead] { s with phase := .cp } = .next { s with phase := .cp, out := s.acc, ok := true })) ∧
  (∀ t : Tau, classify .cp .high t = .fin) ∧
  CodedAs 0x21F 0x227 .rpt

/-- R85, R86, R87: B0 and B1 decrement `rem`, assign the bit at the decremented position, keep the other 31, and enter CP on the
last bit; `armed` stays; with `rem = 0` they are the model's fault (U1). 5, 10 to 20, and 30 are X. -/
def Obligations.BitRowsConsumeABit : Prop :=
  (∀ (s : State) (t : Tau) (b : Bool), s.armed = true → s.phase = .rb →
    (if b then 20 < t.toNat ∧ t.toNat < 30 else 5 < t.toNat ∧ t.toNat < 10) →
    (s.rem.toNat = 0 → exec (if b then .b1 t else .b0 t) s = .fault .bitCounterUnderflow) ∧
    (1 ≤ s.rem.toNat →
      ∃ (a : Command) (r : Count), r.toNat = s.rem.toNat - 1 ∧
        (∀ j, j < 32 → a.getLsbD j = if j = r.toNat then b else s.acc.getLsbD j) ∧
        exec (if b then .b1 t else .b0 t) s =
          .next { s with acc := a, rem := r, phase := if r.toNat = 0 then .cp else .rb })) ∧
  (∀ t : Tau, t.toNat ≤ 5 ∨ (10 ≤ t.toNat ∧ t.toNat ≤ 20) ∨ 30 ≤ t.toNat → classify .rb .low t = .x) ∧
  CodedAs 0x406 0x409 .b0 ∧ CodedAs 0x415 0x41D .b1

/-- R88: FIN, whatever its `tau`, clears `armed` and nothing else, which makes the block final; every edge after it is unobserved. -/
def Obligations.FinRowDisarms : Prop :=
  (∀ (s : State) (t : Tau), s.armed = true → s.phase = .cp →
    exec (.fin t) s = .next { s with armed := false } ∧ ({ s with armed := false } : State).final = true ∧
    ∀ es : List (Level × Tau), runEvents (edgeEvents es) { s with armed := false } = .next { s with armed := false }) ∧
  CodedAs 0x700 0x7FF .fin

/-- R89, R48: each of the twelve no-match rows writes `phase <- AP` and nothing else; their words are R48's twelve regions. -/
def Obligations.NoMatchRowsResync : Prop :=
  (∀ (s : State) (t : Tau), s.armed = true →
    (s.phase = .ap →
      exec (.xApL t) s = .next { s with phase := .ap } ∧
      (t.toNat ≤ 120 → exec (.xApHLo t) s = .next { s with phase := .ap }) ∧
      (160 ≤ t.toNat → exec (.xApHHi t) s = .next { s with phase := .ap })) ∧
    (s.phase = .ag →
      (t.toNat ≤ 30 → exec (.xAgLA t) s = .next { s with phase := .ap }) ∧
      (40 ≤ t.toNat → t.toNat ≤ 60 → exec (.xAgLB t) s = .next { s with phase := .ap }) ∧
      (80 ≤ t.toNat → exec (.xAgLC t) s = .next { s with phase := .ap }) ∧
      exec (.xAgH t) s = .next { s with phase := .ap }) ∧
    (s.phase = .rb →
      (t.toNat ≤ 5 → exec (.xRbLA t) s = .next { s with phase := .ap }) ∧
      (10 ≤ t.toNat → t.toNat ≤ 20 → exec (.xRbLB t) s = .next { s with phase := .ap }) ∧
      (30 ≤ t.toNat → exec (.xRbLC t) s = .next { s with phase := .ap }) ∧
      exec (.xRbH t) s = .next { s with phase := .ap }) ∧
    (s.phase = .cp → exec (.xCpL t) s = .next { s with phase := .ap })) ∧
  CodedAs 0x000 0x0FF .xApL ∧ CodedAs 0x100 0x178 .xApHLo ∧ CodedAs 0x1A0 0x1FF .xApHHi ∧
  CodedAs 0x200 0x21E .xAgLA ∧ CodedAs 0x228 0x23C .xAgLB ∧ CodedAs 0x250 0x2FF .xAgLC ∧
  CodedAs 0x300 0x3FF .xAgH ∧ CodedAs 0x400 0x405 .xRbLA ∧ CodedAs 0x40A 0x414 .xRbLB ∧
  CodedAs 0x41E 0x4FF .xRbLC ∧ CodedAs 0x500 0x5FF .xRbH ∧ CodedAs 0x600 0x6FF .xCpL

/-- The model's choice of log entry 8: a classifier row whose condition does not hold is refused by name. -/
def Obligations.RowsNotSelectedAreRefused : Prop :=
  ∀ (i : Instr) (r : Row) (s : State), i.row? = some r →
    (s.armed = false ∨ s.phase ≠ r.phase ∨ i.wellFormed = false) → exec i s = .refused .rowNotSelected

/-! ### Who may change what (spec/10_state.md, spec/20_memory.md, spec/60_exceptions.md) -/

/-- R12: `phase` changes only at START or in the handler while armed, so not at TICK, STOP, READ, INIT or an unobserved edge; an
observed edge that matches no row forces AP. -/
def Obligations.PhaseChangesOnlyAtEdgeOrStart : Prop :=
  ∀ (i : Instr) (s t : State), exec i s = .next t →
    (t.phase ≠ s.phase → i = .start ∨ (i.agent = .handler ∧ s.armed = true)) ∧
    (∀ (l : Level) (o : Option Tau), i = .edge l o → s.armed = true → classify s.phase l (edgeTau o s) = .x →
      t.phase = .ap)

/-- R15: `armed` is set by START alone, and cleared only by STOP, INIT and the FIN action. -/
def Obligations.ArmedWriters : Prop :=
  ∀ (i : Instr) (s t : State), exec i s = .next t →
    (s.armed = false → t.armed = true → i = .start) ∧
    (s.armed = true → t.armed = false →
      i = .stop ∨ i = .init ∨ (s.phase = .cp ∧ ∃ tau : Tau, i = .fin tau) ∨
        (s.phase = .cp ∧ ∃ o : Option Tau, i = .edge .high o))

/-- R26 c, R13, R14: `acc` and `rem` change only at START or in a B0 or B1 step. -/
def Obligations.AccAndRemWriters : Prop :=
  ∀ (i : Instr) (s t : State), exec i s = .next t → ¬(t.acc = s.acc ∧ t.rem = s.rem) →
    i = .start ∨ i.symbol? = some .b0 ∨ i.symbol? = some .b1 ∨
      ∃ (l : Level) (o : Option Tau), i = .edge l o ∧ s.armed = true ∧
        (classify s.phase l (edgeTau o s) = .b0 ∨ classify s.phase l (edgeTau o s) = .b1)

/-- R31: the consumer's cell is written in exactly one case, a READ in phase CP, and then with all of `acc`. -/
def Obligations.OutIsWrittenOnlyByTrueRead : Prop :=
  ∀ (i : Instr) (s t : State), exec i s = .next t →
    t.out = if i = .read ∧ s.phase = .cp then s.acc else s.out

/-- R109: what the handler's context may not do: set `armed`, write `configured`, touch the consumer's cells. -/
def Obligations.HandlerRights : Prop :=
  ∀ (i : Instr) (s t : State), i.agent = .handler → exec i s = .next t →
    (t.armed = true → s.armed = true) ∧ t.configured = s.configured ∧ t.out = s.out ∧ t.ok = s.ok

/-- R26 d, R37 a: in the final sub-state no sequence of EDGE, TICK, READ and STOP changes `armed`, `phase`, `acc` or `rem`, and
every such sequence runs. -/
def Obligations.FinalIsTerminalUntilStart : Prop :=
  ∀ (s : State) (es : List Event), s.configured = true → s.final = true →
    (∀ e ∈ es, ∃ i : Instr, decodeEvent e = .ok i ∧ i ≠ .init ∧ i ≠ .start) →
    ∃ t : State, runEvents es s = .next t ∧
      t.armed = s.armed ∧ t.phase = s.phase ∧ t.acc = s.acc ∧ t.rem = s.rem

/-! ### Invariant -/

/-- Every step keeps the invariant: only a configured block is armed, `rem <= 32` (R26 a), and the positions of `acc` still to be
received are 0. The last clause is derived: it makes assignment and OR in consume-bit (D11) the same on every such state. -/
def Obligations.InvariantKeptByStep : Prop :=
  ∀ s t : State, s.Inv → step s = .next t → t.Inv

/-- The invariant holds at reset, a power-on state (it rests on the reset values of log entry 1). -/
def Obligations.InvariantAtReset : Prop :=
  State.reset.PowerOn ∧ State.reset.Inv

/-- START establishes the invariant from any configured state, whatever power-on left in `acc` and `rem`. -/
def Obligations.StartEstablishesInvariant : Prop :=
  ∀ s : State, s.configured = true → ∃ t : State, exec .start s = .next t ∧ t.Inv

/-! ### Captures (spec/30_encoding.md R50, R51; spec/42_edge_handler.md R92 to R94; spec/70_reset_and_hazards.md) -/

/-- R92: from any configured state, START, any edges that are X in AP, and a data frame of `x` with any intervals inside their windows:
after the k-th bit edge `rem = 32 - k`, the top k bits of `acc` hold the bits received, first bit highest, and the others are 0;
the whole frame ends final with `acc = x`, `rem = 0`, and READ answers `(true, x)`. Every event runs. -/
def Obligations.CleanCaptureDeliversTheWord : Prop :=
  ∀ (s : State) (noise : List (Level × Tau)) (x : Command) (tPre tGap tStop : Tau) (tBit : Nat → Tau),
    s.configured = true → (∀ e ∈ noise, classify .ap e.1 e.2 = .x) →
    inPreambleWindow tPre = true → inGapWindow tGap = true → Spells x tBit 32 →
    (∀ k, k ≤ 32 → ∃ t : State,
      runEvents (evStart :: (edgeEvents noise ++ (frameHead tPre tGap tBit 32).take (2 + k))) s = .next t ∧
      t.rem.toNat = 32 - k ∧ t.armed = true ∧
      ∀ j, j < 32 → t.acc.getLsbD j = if 32 - k ≤ j then x.getLsbD j else false) ∧
    ∃ t : State,
      runEvents (evStart :: (edgeEvents noise ++ (dataFrame tPre tGap tBit tStop ++ [evRead]))) s = .next t ∧
      t.armed = false ∧ t.phase = .cp ∧ t.acc = x ∧ t.rem = 0#8 ∧ t.ok = true ∧ t.out = x

/-- R93 a: with `rem = r` left by an abandoned capture, the next data frame completes after `r` bits, with the old top bits of `acc`
over the first `r` bits of the new frame, and READ answers true with that mixed word. At `r = 32` it is R93 b: no bit was consumed
before, the frame is neither early nor mixed, and decodes cleanly. -/
def Obligations.StaleCounterMixesTwoFrames : Prop :=
  ∀ (s : State) (x : Command) (tPre tGap : Tau) (tBit : Nat → Tau) (r : Nat),
    s.configured = true → s.armed = true → s.phase = .ap → s.rem.toNat = r → 1 ≤ r → r ≤ 32 →
    inPreambleWindow tPre = true → inGapWindow tGap = true → Spells x tBit 32 →
    ∃ t : State,
      runEvents ((frameHead tPre tGap tBit 32).take (2 + r) ++ [evRead]) s = .next t ∧
      t.phase = .cp ∧ t.rem = 0#8 ∧ t.armed = true ∧ t.ok = true ∧ t.out = t.acc ∧
      ∀ j, j < 32 → t.acc.getLsbD j = if j < r then x.getLsbD (j + (32 - r)) else s.acc.getLsbD j

/-- R93 a: that frame is never finalised: its remaining bit edges and its (short) stop edge are all X, and it ends armed in AP with
`rem = 0` and the mixed word in `acc`. -/
def Obligations.StaleCounterFrameIsNeverFinal : Prop :=
  ∀ (s : State) (x : Command) (tPre tGap tStop : Tau) (tBit : Nat → Tau) (r : Nat),
    s.configured = true → s.armed = true → s.phase = .ap → s.rem.toNat = r → 1 ≤ r → r ≤ 31 →
    inPreambleWindow tPre = true → inGapWindow tGap = true → Spells x tBit 32 → tStop.toNat ≤ 120 →
    ∃ t : State,
      runEvents (dataFrame tPre tGap tBit tStop) s = .next t ∧
      t.phase = .ap ∧ t.rem = 0#8 ∧ t.armed = true ∧
      ∀ j, j < 32 → t.acc.getLsbD j = if j < r then x.getLsbD (j + (32 - r)) else s.acc.getLsbD j

/-- R127, R93 c: the underflow is reachable: START, 32 bits, a low edge, PRE, GAP and one bit edge. -/
def Obligations.UnderflowIsReachable : Prop :=
  ∀ (s : State) (x : Command) (tPre tGap tLow tBitAgain : Tau) (tBit : Nat → Tau),
    s.configured = true → inPreambleWindow tPre = true → inGapWindow tGap = true → Spells x tBit 32 →
    inZeroWindow tBitAgain = true ∨ inOneWindow tBitAgain = true →
    runEvents (evStart :: (frameHead tPre tGap tBit 32 ++
      [evEdge .low tLow, evEdge .high tPre, evEdge .low tGap, evEdge .low tBitAgain])) s =
      .fault .bitCounterUnderflow

/-- R133, R84: a repeat frame from AP ends final with `acc` and `rem` as they were, and READ answers true with that `acc`; after START
that is `(true, 0)`. R133 and R84 say nothing of the timer: that its Level A edges clear it is the model's choice, log entry 6. -/
def Obligations.RepeatFrameKeepsAccumulator : Prop :=
  ∀ (s : State) (tPre tRpt tStop : Tau), s.configured = true →
    inPreambleWindow tPre = true → inRepeatWindow tRpt = true →
    (s.armed = true → s.phase = .ap →
      runEvents (repeatFrame tPre tRpt tStop ++ [evRead]) s =
        .next { s with phase := .cp, armed := false, tcnt := 0#8, ovf := false, out := s.acc, ok := true }) ∧
    runEvents (evStart :: (repeatFrame tPre tRpt tStop ++ [evRead])) s =
      .next { s with acc := 0#32, rem := 32#8, phase := .cp, armed := false, tcnt := 0#8, ovf := false,
                     out := 0#32, ok := true }

/-- R126: in pending-stop READ answers true; a low-level edge then takes the word away, and any number of READs answer false; a
START there makes the (short) stop edge that follows harmless. R126 says nothing of the timer: that the Level A edges clear it is the
model's choice, log entry 6. -/
def Obligations.ReadTrueCanBecomeFalse : Prop :=
  ∀ (s : State) (t : Tau), s.configured = true → s.pendingStop = true →
    runEvents [evRead] s = .next { s with out := s.acc, ok := true } ∧
    (∀ n : Nat, runEvents ([evRead, evEdge .low t] ++ List.replicate (n + 1) evRead) s =
      .next { s with out := s.acc, ok := false, phase := .ap, tcnt := 0#8, ovf := false }) ∧
    (t.toNat ≤ 120 → runEvents [evStart, evEdge .high t] s =
      .next { s with acc := 0#32, rem := 32#8, phase := .ap, armed := true, tcnt := 0#8, ovf := false })

/-- R94: if the level of every observed edge is the opposite of the one before, no bit is ever consumed: from AP every such
sequence of edges runs and leaves `acc` and `rem` as they were. -/
def Obligations.AlternatingLevelsConsumeNoBit : Prop :=
  ∀ (s : State) (prev : Level) (es : List (Level × Tau)), s.phase = .ap → Alternates prev es →
    ∃ t : State, runEvents (edgeEvents es) s = .next t ∧ t.acc = s.acc ∧ t.rem = s.rem

/-- R65: a Level T run and the Level A run of its edges, each carrying the `tau` that capture-and-reset would have read, agree
on everything a Level A model keeps: next states, faults and refusals. -/
def Obligations.LevelAStandsForLevelT : Prop :=
  ∀ (es : List Event) (s : State), (∀ e ∈ es, e.iface = .levelT) →
    mapNext State.levelA (runEvents (abstractTrace es s) s) = mapNext State.levelA (runEvents es s)
end

