-- ==== Sys2Proof/Laws/Decode.lean ====
section
/-! SUPPORT. What the written events of Machine/Trace.lean decode to, and the fields of the words. -/

namespace Sys2Proof.Machine

/-- The fields of an EDGE word. -/
theorem edgeWord_fields (l : Level) (t : Tau) :
    topField (edgeWord l t) = 2#2 ∧ levelField (edgeWord l t) = l ∧ tauField (edgeWord l t) = t := by
  cases l <;> revert t <;> decide

/-- The fields of a classifier word. -/
theorem classifierWord_fields (p : Phase) (l : Level) (t : Tau) :
    phaseOfCode (topField (classifierWord p l t)) = p ∧ levelField (classifierWord p l t) = l ∧
      tauField (classifierWord p l t) = t := by
  cases p <;> cases l <;> revert t <;> decide

@[simp] theorem decodeEvent_evInit : decodeEvent evInit = .ok .init := by decide
@[simp] theorem decodeEvent_evStart : decodeEvent evStart = .ok .start := by decide
@[simp] theorem decodeEvent_evStop : decodeEvent evStop = .ok .stop := by decide
@[simp] theorem decodeEvent_evRead : decodeEvent evRead = .ok .read := by decide
@[simp] theorem decodeEvent_evTick : decodeEvent evTick = .ok .tick := by decide

@[simp] theorem decodeEvent_evEdgeT (l : Level) : decodeEvent (evEdgeT l) = .ok (.edge l none) := by
  cases l <;> decide

@[simp] theorem decodeEvent_evEdge (l : Level) (t : Tau) : decodeEvent (evEdge l t) = .ok (.edge l (some t)) := by
  obtain ⟨hk, hl, ht⟩ := edgeWord_fields l t
  simp [decodeEvent, evEdge, hk, hl, ht]

end Sys2Proof.Machine
end

