-- ==== Sys2Proof/Laws/State.lean ====
section
/-! SUPPORT. One lemma for each field of State under each update: what was written reads back, the rest is as it was. -/

namespace Sys2Proof.Machine

variable (s : State)

@[simp] theorem setConfigured_configured (b : Bool) : (s.setConfigured b).configured = b := rfl
@[simp] theorem setConfigured_armed (b : Bool) : (s.setConfigured b).armed = s.armed := rfl
@[simp] theorem setConfigured_phase (b : Bool) : (s.setConfigured b).phase = s.phase := rfl
@[simp] theorem setConfigured_acc (b : Bool) : (s.setConfigured b).acc = s.acc := rfl
@[simp] theorem setConfigured_rem (b : Bool) : (s.setConfigured b).rem = s.rem := rfl
@[simp] theorem setConfigured_tcnt (b : Bool) : (s.setConfigured b).tcnt = s.tcnt := rfl
@[simp] theorem setConfigured_ovf (b : Bool) : (s.setConfigured b).ovf = s.ovf := rfl
@[simp] theorem setConfigured_out (b : Bool) : (s.setConfigured b).out = s.out := rfl
@[simp] theorem setConfigured_ok (b : Bool) : (s.setConfigured b).ok = s.ok := rfl
@[simp] theorem setConfigured_inputs (b : Bool) : (s.setConfigured b).inputs = s.inputs := rfl
@[simp] theorem setConfigured_draws (b : Bool) : (s.setConfigured b).draws = s.draws := rfl

@[simp] theorem setArmed_configured (b : Bool) : (s.setArmed b).configured = s.configured := rfl
@[simp] theorem setArmed_armed (b : Bool) : (s.setArmed b).armed = b := rfl
@[simp] theorem setArmed_phase (b : Bool) : (s.setArmed b).phase = s.phase := rfl
@[simp] theorem setArmed_acc (b : Bool) : (s.setArmed b).acc = s.acc := rfl
@[simp] theorem setArmed_rem (b : Bool) : (s.setArmed b).rem = s.rem := rfl
@[simp] theorem setArmed_tcnt (b : Bool) : (s.setArmed b).tcnt = s.tcnt := rfl
@[simp] theorem setArmed_ovf (b : Bool) : (s.setArmed b).ovf = s.ovf := rfl
@[simp] theorem setArmed_out (b : Bool) : (s.setArmed b).out = s.out := rfl
@[simp] theorem setArmed_ok (b : Bool) : (s.setArmed b).ok = s.ok := rfl
@[simp] theorem setArmed_inputs (b : Bool) : (s.setArmed b).inputs = s.inputs := rfl
@[simp] theorem setArmed_draws (b : Bool) : (s.setArmed b).draws = s.draws := rfl

@[simp] theorem setPhase_configured (p : Phase) : (s.setPhase p).configured = s.configured := rfl
@[simp] theorem setPhase_armed (p : Phase) : (s.setPhase p).armed = s.armed := rfl
@[simp] theorem setPhase_phase (p : Phase) : (s.setPhase p).phase = p := rfl
@[simp] theorem setPhase_acc (p : Phase) : (s.setPhase p).acc = s.acc := rfl
@[simp] theorem setPhase_rem (p : Phase) : (s.setPhase p).rem = s.rem := rfl
@[simp] theorem setPhase_tcnt (p : Phase) : (s.setPhase p).tcnt = s.tcnt := rfl
@[simp] theorem setPhase_ovf (p : Phase) : (s.setPhase p).ovf = s.ovf := rfl
@[simp] theorem setPhase_out (p : Phase) : (s.setPhase p).out = s.out := rfl
@[simp] theorem setPhase_ok (p : Phase) : (s.setPhase p).ok = s.ok := rfl
@[simp] theorem setPhase_inputs (p : Phase) : (s.setPhase p).inputs = s.inputs := rfl
@[simp] theorem setPhase_draws (p : Phase) : (s.setPhase p).draws = s.draws := rfl

@[simp] theorem setCapture_configured (a : Command) (r : Count) : (s.setCapture a r).configured = s.configured := rfl
@[simp] theorem setCapture_armed (a : Command) (r : Count) : (s.setCapture a r).armed = s.armed := rfl
@[simp] theorem setCapture_phase (a : Command) (r : Count) : (s.setCapture a r).phase = s.phase := rfl
@[simp] theorem setCapture_acc (a : Command) (r : Count) : (s.setCapture a r).acc = a := rfl
@[simp] theorem setCapture_rem (a : Command) (r : Count) : (s.setCapture a r).rem = r := rfl
@[simp] theorem setCapture_tcnt (a : Command) (r : Count) : (s.setCapture a r).tcnt = s.tcnt := rfl
@[simp] theorem setCapture_ovf (a : Command) (r : Count) : (s.setCapture a r).ovf = s.ovf := rfl
@[simp] theorem setCapture_out (a : Command) (r : Count) : (s.setCapture a r).out = s.out := rfl
@[simp] theorem setCapture_ok (a : Command) (r : Count) : (s.setCapture a r).ok = s.ok := rfl
@[simp] theorem setCapture_inputs (a : Command) (r : Count) : (s.setCapture a r).inputs = s.inputs := rfl
@[simp] theorem setCapture_draws (a : Command) (r : Count) : (s.setCapture a r).draws = s.draws := rfl

@[simp] theorem setTimer_configured (t : Tau) (o : Bool) : (s.setTimer t o).configured = s.configured := rfl
@[simp] theorem setTimer_armed (t : Tau) (o : Bool) : (s.setTimer t o).armed = s.armed := rfl
@[simp] theorem setTimer_phase (t : Tau) (o : Bool) : (s.setTimer t o).phase = s.phase := rfl
@[simp] theorem setTimer_acc (t : Tau) (o : Bool) : (s.setTimer t o).acc = s.acc := rfl
@[simp] theorem setTimer_rem (t : Tau) (o : Bool) : (s.setTimer t o).rem = s.rem := rfl
@[simp] theorem setTimer_tcnt (t : Tau) (o : Bool) : (s.setTimer t o).tcnt = t := rfl
@[simp] theorem setTimer_ovf (t : Tau) (o : Bool) : (s.setTimer t o).ovf = o := rfl
@[simp] theorem setTimer_out (t : Tau) (o : Bool) : (s.setTimer t o).out = s.out := rfl
@[simp] theorem setTimer_ok (t : Tau) (o : Bool) : (s.setTimer t o).ok = s.ok := rfl
@[simp] theorem setTimer_inputs (t : Tau) (o : Bool) : (s.setTimer t o).inputs = s.inputs := rfl
@[simp] theorem setTimer_draws (t : Tau) (o : Bool) : (s.setTimer t o).draws = s.draws := rfl

@[simp] theorem setAnswer_configured (b : Bool) (v : Command) : (s.setAnswer b v).configured = s.configured := rfl
@[simp] theorem setAnswer_armed (b : Bool) (v : Command) : (s.setAnswer b v).armed = s.armed := rfl
@[simp] theorem setAnswer_phase (b : Bool) (v : Command) : (s.setAnswer b v).phase = s.phase := rfl
@[simp] theorem setAnswer_acc (b : Bool) (v : Command) : (s.setAnswer b v).acc = s.acc := rfl
@[simp] theorem setAnswer_rem (b : Bool) (v : Command) : (s.setAnswer b v).rem = s.rem := rfl
@[simp] theorem setAnswer_tcnt (b : Bool) (v : Command) : (s.setAnswer b v).tcnt = s.tcnt := rfl
@[simp] theorem setAnswer_ovf (b : Bool) (v : Command) : (s.setAnswer b v).ovf = s.ovf := rfl
@[simp] theorem setAnswer_out (b : Bool) (v : Command) : (s.setAnswer b v).out = v := rfl
@[simp] theorem setAnswer_ok (b : Bool) (v : Command) : (s.setAnswer b v).ok = b := rfl
@[simp] theorem setAnswer_inputs (b : Bool) (v : Command) : (s.setAnswer b v).inputs = s.inputs := rfl
@[simp] theorem setAnswer_draws (b : Bool) (v : Command) : (s.setAnswer b v).draws = s.draws := rfl

@[simp] theorem setInputs_configured (es : List Event) : (s.setInputs es).configured = s.configured := rfl
@[simp] theorem setInputs_armed (es : List Event) : (s.setInputs es).armed = s.armed := rfl
@[simp] theorem setInputs_phase (es : List Event) : (s.setInputs es).phase = s.phase := rfl
@[simp] theorem setInputs_acc (es : List Event) : (s.setInputs es).acc = s.acc := rfl
@[simp] theorem setInputs_rem (es : List Event) : (s.setInputs es).rem = s.rem := rfl
@[simp] theorem setInputs_tcnt (es : List Event) : (s.setInputs es).tcnt = s.tcnt := rfl
@[simp] theorem setInputs_ovf (es : List Event) : (s.setInputs es).ovf = s.ovf := rfl
@[simp] theorem setInputs_out (es : List Event) : (s.setInputs es).out = s.out := rfl
@[simp] theorem setInputs_ok (es : List Event) : (s.setInputs es).ok = s.ok := rfl
@[simp] theorem setInputs_inputs (es : List Event) : (s.setInputs es).inputs = es := rfl
@[simp] theorem setInputs_draws (es : List Event) : (s.setInputs es).draws = s.draws := rfl

@[simp] theorem nextDraw_configured : (s.nextDraw).configured = s.configured := rfl
@[simp] theorem nextDraw_armed : (s.nextDraw).armed = s.armed := rfl
@[simp] theorem nextDraw_phase : (s.nextDraw).phase = s.phase := rfl
@[simp] theorem nextDraw_acc : (s.nextDraw).acc = s.acc := rfl
@[simp] theorem nextDraw_rem : (s.nextDraw).rem = s.rem := rfl
@[simp] theorem nextDraw_tcnt : (s.nextDraw).tcnt = s.tcnt := rfl
@[simp] theorem nextDraw_ovf : (s.nextDraw).ovf = s.ovf := rfl
@[simp] theorem nextDraw_out : (s.nextDraw).out = s.out := rfl
@[simp] theorem nextDraw_ok : (s.nextDraw).ok = s.ok := rfl
@[simp] theorem nextDraw_inputs : (s.nextDraw).inputs = s.inputs := rfl
@[simp] theorem nextDraw_draws : (s.nextDraw).draws = s.draws + 1 := rfl

end Sys2Proof.Machine
end

