-- ==== Sys2Proof/Laws/Ops.lean ====
section
/-! SUPPORT. For each shared operation, what it writes and everything it can do. -/

namespace Sys2Proof.Machine

/-! ### The bit write -/

/-- `acc[k] <- b` is an assignment of one bit: the other 31 are unchanged. -/
theorem writeBit_getLsbD (a : Command) (k : Nat) (b : Bool) (j : Nat) (hj : j < 32) :
    (writeBit a k b).getLsbD j = if j = k then b else a.getLsbD j := by
  by_cases hjk : j = k
  · subst hjk
    cases b <;> simp [writeBit, hj]
  · by_cases hlt : j < k
    · cases b <;> simp [writeBit, hj, hlt, hjk]
    · have hne : j - k ≠ 0 := by omega
      cases b <;> simp [writeBit, hj, hlt, hjk, hne]

/-- Decrementing a counter that is not 0 subtracts 1 from its value. -/
theorem pred_toNat (r : Count) (h : r ≠ 0#8) : (r - 1#8).toNat = r.toNat - 1 := by
  have hne : r.toNat ≠ 0 := fun h0 => h (BitVec.eq_of_toNat_eq (by simpa using h0))
  have hlt := r.isLt
  rw [BitVec.toNat_sub]
  simp only [BitVec.toNat_ofNat]
  omega

/-! ### What the actions write -/

/-- START's writes, and nothing else. -/
theorem beginCapture_eq (s : State) :
    s.beginCapture = { s with acc := 0#32, rem := 32#8, phase := .ap, armed := true } := rfl

/-- READ in phase CP. -/
theorem answerRead_of_readable (s : State) (h : s.phase = .cp) :
    s.answerRead = { s with ok := true, out := s.acc } := by
  simp [State.answerRead, State.readable, h, State.setAnswer]

/-- READ in any other phase. -/
theorem answerRead_of_not_readable (s : State) (h : s.phase ≠ .cp) :
    s.answerRead = { s with ok := false } := by
  simp [State.answerRead, State.readable, h, State.setAnswer]

/-- A counted tick writes the timer alone. -/
theorem countTick_eq (s : State) :
    s.countTick = { s with tcnt := s.tcnt + 1#8, ovf := ovfAfterTick s.tcnt s.ovf } := rfl

/-- Capture-and-reset writes the timer alone. -/
theorem captureAndReset_eq (s : State) : s.captureAndReset = { s with tcnt := 0#8, ovf := false } := rfl

/-- Consume-bit's writes, and nothing else. -/
theorem takeBit_eq (s : State) (b : Bool) :
    s.takeBit b = { s with
      acc := writeBit s.acc (s.rem - 1#8).toNat b
      rem := s.rem - 1#8
      phase := phaseAfterBit (s.rem - 1#8) s.phase } := rfl

/-! ### What the shared operations can do -/

/-- Consume-bit goes on exactly where `rem` is not 0, and then takes the bit. -/
theorem consumeBit_next {b : Bool} {s t : State} : consumeBit b s = .next t ↔ s.rem ≠ 0#8 ∧ t = s.takeBit b := by
  unfold consumeBit
  split
  · simp_all
  · simp_all [eq_comm (a := s.takeBit b)]

/-- An action of a symbol that goes on did one of five things. -/
theorem symbolAction_next {y : Symbol} {s t : State} (h : symbolAction y s = .next t) :
    (y = .pre ∧ t = s.setPhase .ag) ∨ (y = .gap ∧ t = s.setPhase .rb) ∨ (y = .rpt ∧ t = s.setPhase .cp) ∨
      (∃ b, y = (if b then .b1 else .b0) ∧ s.rem ≠ 0#8 ∧ t = s.takeBit b) ∨
      (y = .fin ∧ t = s.setArmed false) ∨ (y = .x ∧ t = s.setPhase .ap) := by
  cases y with
  | b0 => exact .inr (.inr (.inr (.inl ⟨false, rfl, consumeBit_next.mp h⟩)))
  | b1 => exact .inr (.inr (.inr (.inl ⟨true, rfl, consumeBit_next.mp h⟩)))
  | _ => simp_all [symbolAction, goto, finalize]

/-- An edge that goes on was unobserved, or the handler captured, reset and acted. -/
theorem takeEdgeInterrupt_next {l : Level} {o : Option Tau} {s t : State} (h : takeEdgeInterrupt l o s = .next t) :
    (s.armed = false ∧ t = s) ∨
      (s.armed = true ∧ symbolAction (classify s.phase l (edgeTau o s)) s.captureAndReset = .next t) := by
  unfold takeEdgeInterrupt returnFromEdge at h
  split at h
  · exact .inr ⟨‹_›, h⟩
  · exact .inl (by simp_all)

/-- A row that goes on was selected and did its action. -/
theorem applyRow_next {i : Instr} {act : State → Result} {s t : State} (h : applyRow i act s = .next t) :
    rowSelected i s = true ∧ act s = .next t := by
  unfold applyRow at h
  split at h <;> simp_all

/-- A selected row: the block is armed, in the row's phase, with a `tau` of the row. -/
theorem rowSelected_iff {i : Instr} {s : State} :
    rowSelected i s = true ↔ ∃ r, i.row? = some r ∧ s.armed = true ∧ s.phase = r.phase ∧ r.holdsTau = true := by
  unfold rowSelected
  cases i.row? <;> simp [and_assoc]

end Sys2Proof.Machine
end

