-- ==== Sys2Proof/Laws/PerInstr.lean ====
section
/-! SUPPORT. Families of statements about every instruction, one lemma for each constructor.
RowBits: the code of an instruction carries the fixed bits its row of spec/opcode_table.json gives (mask and match, R55). -/

/-- The code's bits under the row's mask are the row's match. -/
def Sys2Proof.Laws.RowBits.Statement (i : Sys2Proof.Instr) : Prop :=
  (Sys2Proof.encode i).bits &&& i.maskMatch.1 = i.maskMatch.2

namespace Sys2Proof.Laws.RowBits

open Sys2Proof

/-- Three fixed bits over any `tau` survive the mask of a classifier row. -/
theorem fixed_over_tau (c : BitVec 3) (t : Tau) : (c ++ t : Word11) &&& 0x700#11 = c ++ 0#8 := by
  revert c t; decide

theorem pre (tau : Tau) : Statement (.pre tau) := fixed_over_tau _ tau
theorem gap (tau : Tau) : Statement (.gap tau) := fixed_over_tau _ tau
theorem rpt (tau : Tau) : Statement (.rpt tau) := fixed_over_tau _ tau
theorem b0 (tau : Tau) : Statement (.b0 tau) := fixed_over_tau _ tau
theorem b1 (tau : Tau) : Statement (.b1 tau) := fixed_over_tau _ tau
theorem fin (tau : Tau) : Statement (.fin tau) := fixed_over_tau _ tau
theorem xApL (tau : Tau) : Statement (.xApL tau) := fixed_over_tau _ tau
theorem xApHLo (tau : Tau) : Statement (.xApHLo tau) := fixed_over_tau _ tau
theorem xApHHi (tau : Tau) : Statement (.xApHHi tau) := fixed_over_tau _ tau
theorem xAgLA (tau : Tau) : Statement (.xAgLA tau) := fixed_over_tau _ tau
theorem xAgLB (tau : Tau) : Statement (.xAgLB tau) := fixed_over_tau _ tau
theorem xAgLC (tau : Tau) : Statement (.xAgLC tau) := fixed_over_tau _ tau
theorem xAgH (tau : Tau) : Statement (.xAgH tau) := fixed_over_tau _ tau
theorem xRbLA (tau : Tau) : Statement (.xRbLA tau) := fixed_over_tau _ tau
theorem xRbLB (tau : Tau) : Statement (.xRbLB tau) := fixed_over_tau _ tau
theorem xRbLC (tau : Tau) : Statement (.xRbLC tau) := fixed_over_tau _ tau
theorem xRbH (tau : Tau) : Statement (.xRbH tau) := fixed_over_tau _ tau
theorem xCpL (tau : Tau) : Statement (.xCpL tau) := fixed_over_tau _ tau
theorem init : Statement .init := by unfold Statement; decide
theorem start : Statement .start := by unfold Statement; decide
theorem stop : Statement .stop := by unfold Statement; decide
theorem read : Statement .read := by unfold Statement; decide
theorem tick : Statement .tick := by unfold Statement; decide
/-- Two fixed bits over any level and `tau` survive the mask of EDGE. -/
theorem kind_over_edge (l : Level) (t : Tau) : edgeWord l t &&& 0x600#11 = 0x400#11 := by
  cases l <;> revert t <;> decide

theorem edge (level : Level) (tau : Option Tau) : Statement (.edge level tau) := by
  cases tau with
  | none => exact kind_over_edge level 0#8
  | some t => exact kind_over_edge level t

end Sys2Proof.Laws.RowBits
end

