-- ==== Sys2Proof/Laws/Step.lean ====
section
/-! SUPPORT. Everything one instruction can do, said once, and how events run one after another. -/

namespace Sys2Proof.Machine

/-- A classifier row runs the action of its symbol where it is selected, and is refused by name elsewhere. -/
theorem exec_row {i : Instr} {y : Symbol} (hy : i.symbol? = some y) (s : State) :
    exec i s = if rowSelected i s then symbolAction y s else .refused .rowNotSelected := by
  cases i with
  | init => simp [Instr.symbol?] at hy
  | start => simp [Instr.symbol?] at hy
  | stop => simp [Instr.symbol?] at hy
  | read => simp [Instr.symbol?] at hy
  | tick => simp [Instr.symbol?] at hy
  | edge l o => simp [Instr.symbol?] at hy
  | _ => cases hy; rfl

/-- Everything `exec` can do when it goes on. -/
theorem exec_next {i : Instr} {s t : State} (h : exec i s = .next t) :
    (i = .init ∧ s.configured = false ∧ t = (s.setConfigured true).setArmed false) ∨
    (i = .start ∧ s.configured = true ∧ t = s.beginCapture) ∨
    (i = .stop ∧ s.configured = true ∧ t = s.setArmed false) ∨
    (i = .read ∧ s.configured = true ∧ t = s.answerRead) ∨
    (i = .tick ∧ s.configured = true ∧ t = s.countTick) ∨
    (i = .tick ∧ s.configured = false ∧ t = s.drawTimer) ∨
    (∃ l o, i = .edge l o ∧ s.armed = false ∧ t = s) ∨
    (∃ l o, i = .edge l o ∧ s.armed = true ∧
      symbolAction (classify s.phase l (edgeTau o s)) s.captureAndReset = .next t) ∨
    (∃ y, i.symbol? = some y ∧ rowSelected i s = true ∧ symbolAction y s = .next t) := by
  cases i with
  | init => simp only [exec, execInit] at h; split at h <;> simp_all
  | start => simp only [exec, execStart] at h; split at h <;> simp_all
  | stop => simp only [exec, execStop] at h; split at h <;> simp_all
  | read => simp only [exec, execRead] at h; split at h <;> simp_all
  | tick => simp only [exec, execTick] at h; split at h <;> simp_all
  | edge l o =>
    rcases takeEdgeInterrupt_next h with ⟨ha, rfl⟩ | ⟨ha, hs⟩
    · exact .inr (.inr (.inr (.inr (.inr (.inr (.inl ⟨l, o, rfl, ha, rfl⟩))))))
    · exact .inr (.inr (.inr (.inr (.inr (.inr (.inr (.inl ⟨l, o, rfl, ha, hs⟩)))))))
  | _ =>
    obtain ⟨hr, ha⟩ := applyRow_next h
    exact .inr (.inr (.inr (.inr (.inr (.inr (.inr (.inr ⟨_, rfl, hr, ha⟩)))))))

/-- A delivered event that decodes is executed on the state it was delivered to. -/
theorem stepEvent_of_decode {e : Event} {i : Instr} (h : decodeEvent e = .ok i) (s : State) :
    stepEvent e s = exec i s := by
  simp [stepEvent, step, State.deliver, State.takeEvent, State.setInputs, h]

/-- A delivered word that spells no event is refused. -/
theorem stepEvent_of_reject {e : Event} {r : Reject} (h : decodeEvent e = .error r) (s : State) :
    stepEvent e s = .refused (.noSuchEvent r) := by
  simp [stepEvent, step, State.deliver, State.takeEvent, State.setInputs, h]

@[simp] theorem runEvents_nil (s : State) : runEvents [] s = .next s := rfl

/-- The next event, where it runs. -/
theorem runEvents_cons_next {e : Event} {es : List Event} {s t : State} (h : stepEvent e s = .next t) :
    runEvents (e :: es) s = runEvents es t := by
  simp [runEvents, h]

/-- The next event, where it faults. -/
theorem runEvents_cons_fault {e : Event} {es : List Event} {s : State} {f : Fault} (h : stepEvent e s = .fault f) :
    runEvents (e :: es) s = .fault f := by
  simp [runEvents, h]

/-- The next event, where it is refused. -/
theorem runEvents_cons_refused {e : Event} {es : List Event} {s : State} {r : Refusal}
    (h : stepEvent e s = .refused r) : runEvents (e :: es) s = .refused r := by
  simp [runEvents, h]

/-- Runs compose. -/
theorem runEvents_append_next {es fs : List Event} {s t : State} (h : runEvents es s = .next t) :
    runEvents (es ++ fs) s = runEvents fs t := by
  induction es generalizing s with
  | nil => simp_all
  | cons e es ih =>
    simp only [runEvents, List.cons_append] at h ⊢
    split <;> simp_all

/-- An observed edge: capture and reset, then the action of the symbol. -/
theorem stepEvent_edge_armed (l : Level) (t : Tau) (s : State) (h : s.armed = true) :
    stepEvent (evEdge l t) s = symbolAction (classify s.phase l t) s.captureAndReset := by
  rw [stepEvent_of_decode (decodeEvent_evEdge l t)]
  simp [exec, execEdge, takeEdgeInterrupt, returnFromEdge, h, edgeTau]

/-- An unobserved edge changes nothing. -/
theorem stepEvent_edge_disarmed (l : Level) (t : Tau) (s : State) (h : s.armed = false) :
    stepEvent (evEdge l t) s = .next s := by
  rw [stepEvent_of_decode (decodeEvent_evEdge l t)]
  simp [exec, execEdge, takeEdgeInterrupt, h]

end Sys2Proof.Machine
end

