-- ==== Sys2Proof/Tests/Slice0.lean ====
section
/-! SUPPORT. The model's own tests: ill-formed terms, words written out from the spec's encodings, one step of each instruction
with its result taken from spec/95_test_vectors.md or by hand from the rules, and a witness for the hypotheses of each
statement. -/

namespace Sys2Proof.Tests

open Sys2Proof Sys2Proof.Machine

/-! ### Helpers -/

/-- The next state, if there is one. -/
def nextOf (r : Result) : Option State :=
  match r with
  | .next s => some s
  | .fault _ => none
  | .refused _ => none

/-- The fault, if there is one. -/
def faultOf (r : Result) : Option Fault :=
  match r with
  | .next _ => none
  | .fault f => some f
  | .refused _ => none

/-- The refusal, if there is one. -/
def refusalOf (r : Result) : Option Refusal :=
  match r with
  | .next _ => none
  | .fault _ => none
  | .refused f => some f

/-- A configured block: `armed phase acc rem` as spec/95_test_vectors.md writes a state. -/
def st (armed : Bool) (phase : Phase) (acc : Command) (rem : Count) : State :=
  { State.reset with configured := true, armed := armed, phase := phase, acc := acc, rem := rem }

/-- The same with a timer, for the Level T vectors. -/
def stT (armed : Bool) (phase : Phase) (tcnt : Tau) (ovf : Bool) : State :=
  { st armed phase 0#32 32#8 with tcnt := tcnt, ovf := ovf }

/-! ### WellFormed: for each check an ill-formed term, refused -/

theorem test_wf_pre : (Instr.pre 120#8).wellFormed = false ∧ (Instr.pre 160#8).wellFormed = false := by decide
theorem test_wf_gap : (Instr.gap 60#8).wellFormed = false ∧ (Instr.gap 80#8).wellFormed = false := by decide
theorem test_wf_rpt : (Instr.rpt 30#8).wellFormed = false ∧ (Instr.rpt 40#8).wellFormed = false := by decide
theorem test_wf_b0 : (Instr.b0 5#8).wellFormed = false ∧ (Instr.b0 10#8).wellFormed = false := by decide
theorem test_wf_b1 : (Instr.b1 20#8).wellFormed = false ∧ (Instr.b1 30#8).wellFormed = false := by decide
theorem test_wf_xApHLo : (Instr.xApHLo 121#8).wellFormed = false := by decide
theorem test_wf_xApHHi : (Instr.xApHHi 159#8).wellFormed = false := by decide
theorem test_wf_xAgLA : (Instr.xAgLA 31#8).wellFormed = false := by decide
theorem test_wf_xAgLB : (Instr.xAgLB 39#8).wellFormed = false ∧ (Instr.xAgLB 61#8).wellFormed = false := by decide
theorem test_wf_xAgLC : (Instr.xAgLC 79#8).wellFormed = false := by decide
theorem test_wf_xRbLA : (Instr.xRbLA 6#8).wellFormed = false := by decide
theorem test_wf_xRbLB : (Instr.xRbLB 9#8).wellFormed = false ∧ (Instr.xRbLB 21#8).wellFormed = false := by decide
theorem test_wf_xRbLC : (Instr.xRbLC 29#8).wellFormed = false := by decide

/-! ### Decoding: every constructor by a word written out from spec/30_encoding.md R41, R46, R48 -/

theorem test_decode_pre : decodeClassifier 0b00_1_01111001#11 = .pre 121#8 := by decide
theorem test_decode_gap : decodeClassifier 0b01_0_00111101#11 = .gap 61#8 := by decide
theorem test_decode_rpt : decodeClassifier 0b01_0_00100111#11 = .rpt 39#8 := by decide
theorem test_decode_b0 : decodeClassifier 0b10_0_00001001#11 = .b0 9#8 := by decide
theorem test_decode_b1 : decodeClassifier 0b10_0_00010101#11 = .b1 21#8 := by decide
theorem test_decode_fin : decodeClassifier 0b11_1_00000000#11 = .fin 0#8 := by decide
theorem test_decode_xApL : decodeClassifier 0b00_0_11111111#11 = .xApL 255#8 := by decide
theorem test_decode_xApHLo : decodeClassifier 0b00_1_01111000#11 = .xApHLo 120#8 := by decide
theorem test_decode_xApHHi : decodeClassifier 0b00_1_10100000#11 = .xApHHi 160#8 := by decide
theorem test_decode_xAgLA : decodeClassifier 0b01_0_00011110#11 = .xAgLA 30#8 := by decide
theorem test_decode_xAgLB : decodeClassifier 0b01_0_00111100#11 = .xAgLB 60#8 := by decide
theorem test_decode_xAgLC : decodeClassifier 0b01_0_01010000#11 = .xAgLC 80#8 := by decide
theorem test_decode_xAgH : decodeClassifier 0b01_1_01000110#11 = .xAgH 70#8 := by decide
theorem test_decode_xRbLA : decodeClassifier 0b10_0_00000101#11 = .xRbLA 5#8 := by decide
theorem test_decode_xRbLB : decodeClassifier 0b10_0_00010100#11 = .xRbLB 20#8 := by decide
theorem test_decode_xRbLC : decodeClassifier 0b10_0_00011110#11 = .xRbLC 30#8 := by decide
theorem test_decode_xRbH : decodeClassifier 0b10_1_00001000#11 = .xRbH 8#8 := by decide
theorem test_decode_xCpL : decodeClassifier 0b11_0_00001001#11 = .xCpL 9#8 := by decide
theorem test_decode_init : decodeEvent ⟨.levelA, 0b00_000000000#11⟩ = .ok .init := by decide
theorem test_decode_start : decodeEvent ⟨.levelA, 0b00_000000001#11⟩ = .ok .start := by decide
theorem test_decode_stop : decodeEvent ⟨.levelT, 0b00_000000010#11⟩ = .ok .stop := by decide
theorem test_decode_read : decodeEvent ⟨.levelT, 0b00_000000011#11⟩ = .ok .read := by decide
theorem test_decode_tick : decodeEvent ⟨.levelT, 0b01_000000000#11⟩ = .ok .tick := by decide
theorem test_decode_edge_levelT : decodeEvent ⟨.levelT, 0b10_1_00000000#11⟩ = .ok (.edge .high none) := by decide
theorem test_decode_edge_levelA :
    decodeEvent ⟨.levelA, 0b10_0_10001100#11⟩ = .ok (.edge .low (some 140#8)) := by decide

/-- One ill-formed word for each reason to reject (R53, R65). -/
theorem test_decode_rejects :
    decodeEvent ⟨.levelA, 0x600#11⟩ = .error .reservedKind ∧
    decodeEvent ⟨.levelA, 0x004#11⟩ = .error .ctrlPadding ∧
    decodeEvent ⟨.levelA, 0x300#11⟩ = .error .tickPadding ∧
    decodeEvent ⟨.levelT, 0x401#11⟩ = .error .tauAtLevelT ∧
    decodeEvent ⟨.levelA, 0x200#11⟩ = .error .tickAtLevelA := by decide

/-- Bare numbers: an operation's word, a classifier word, and a number with a bit above bit 10 (log entry 7). -/
theorem test_table_numbers :
    decodeTableWord 16 0x001 = some .start ∧ decodeTableWord 16 0x400 = some (.edge .low none) ∧
    decodeTableWord 16 0x18C = some (.pre 140#8) ∧ decodeTableWord 16 0x41A = some (.b1 26#8) ∧
    decodeTableWord 16 0x800 = none := by decide

/-- R40's column "issued by", and R5's agents: an EDGE is issued by the line and is the handler's step. -/
theorem test_issuers :
    [Instr.init, .start, .stop, .read, .tick, .edge .low none].map Instr.issuer? =
      [some .consumer, some .consumer, some .consumer, some .consumer, some .timer, some .line] ∧
    (Instr.edge .low none).agent = .handler ∧ (Instr.pre 140#8).issuer? = none := by decide

/-! ### One step of each instruction (vectors of spec/95_test_vectors.md by their number) -/

/-- H1; H2: no reset of `acc`, `rem`. -/
theorem test_pre :
    nextOf (exec (.pre 140#8) (st true .ap 0xF0000000#32 28#8)) = some (st true .ag 0xF0000000#32 28#8) := by decide
/-- H4. -/
theorem test_gap : nextOf (exec (.gap 70#8) (st true .ag 0#32 32#8)) = some (st true .rb 0#32 32#8) := by decide
/-- H5; S3 with a stale accumulator. -/
theorem test_rpt :
    nextOf (exec (.rpt 35#8) (st true .ag 0xF0000000#32 28#8)) = some (st true .cp 0xF0000000#32 28#8) := by decide
/-- H11: assignment clears bit 28 of a stale `acc`. -/
theorem test_b0_assigns :
    nextOf (exec (.b0 8#8) (st true .rb 0xFFFFFFFF#32 29#8)) = some (st true .rb 0xEFFFFFFF#32 28#8) := by decide
/-- H16: the fault. -/
theorem test_b0_underflow :
    faultOf (exec (.b0 8#8) (st true .rb 0xFFFFFFFF#32 0#8)) = some .bitCounterUnderflow := by decide
/-- H8: the first bit goes to bit 31. -/
theorem test_b1_first :
    nextOf (exec (.b1 26#8) (st true .rb 0#32 32#8)) = some (st true .rb 0x80000000#32 31#8) := by decide
/-- H12: the last bit enters CP and stays armed. -/
theorem test_b1_last :
    nextOf (exec (.b1 26#8) (st true .rb 0x20DF10EE#32 1#8)) = some (st true .cp 0x20DF10EF#32 0#8) := by decide
/-- H19. -/
theorem test_fin :
    nextOf (exec (.fin 255#8) (st true .cp 0x20DF10EF#32 0#8)) = some (st false .cp 0x20DF10EF#32 0#8) := by decide
/-- H3. -/
theorem test_xApL : nextOf (exec (.xApL 140#8) (st true .ap 0#32 32#8)) = some (st true .ap 0#32 32#8) := by decide
/-- S1, tau 120. -/
theorem test_xApHLo : nextOf (exec (.xApHLo 120#8) (st true .ap 0#32 32#8)) = some (st true .ap 0#32 32#8) := by decide
/-- S1, tau 160. -/
theorem test_xApHHi : nextOf (exec (.xApHHi 160#8) (st true .ap 0#32 32#8)) = some (st true .ap 0#32 32#8) := by decide
/-- R89 in AG below the repeat window. -/
theorem test_xAgLA : nextOf (exec (.xAgLA 30#8) (st true .ag 1#32 32#8)) = some (st true .ap 1#32 32#8) := by decide
/-- H6. -/
theorem test_xAgLB : nextOf (exec (.xAgLB 50#8) (st true .ag 0#32 32#8)) = some (st true .ap 0#32 32#8) := by decide
/-- R89 in AG above the gap window. -/
theorem test_xAgLC : nextOf (exec (.xAgLC 80#8) (st true .ag 1#32 32#8)) = some (st true .ap 1#32 32#8) := by decide
/-- H7. -/
theorem test_xAgH : nextOf (exec (.xAgH 70#8) (st true .ag 0#32 32#8)) = some (st true .ap 0#32 32#8) := by decide
/-- R89 in RB below the 0 window. -/
theorem test_xRbLA : nextOf (exec (.xRbLA 5#8) (st true .rb 2#32 9#8)) = some (st true .ap 2#32 9#8) := by decide
/-- H14. -/
theorem test_xRbLB :
    nextOf (exec (.xRbLB 15#8) (st true .rb 0xF0000000#32 28#8)) = some (st true .ap 0xF0000000#32 28#8) := by decide
/-- R89 in RB above the 1 window. -/
theorem test_xRbLC : nextOf (exec (.xRbLC 30#8) (st true .rb 2#32 9#8)) = some (st true .ap 2#32 9#8) := by decide
/-- H15. -/
theorem test_xRbH : nextOf (exec (.xRbH 9#8) (st true .rb 0#32 31#8)) = some (st true .ap 0#32 31#8) := by decide
/-- H20. -/
theorem test_xCpL :
    nextOf (exec (.xCpL 9#8) (st true .cp 0x20DF10EF#32 0#8)) = some (st true .ap 0x20DF10EF#32 0#8) := by decide
/-- Log entry 8: the row of another phase is not selected. -/
theorem test_row_not_selected : refusalOf (exec (.b1 26#8) (st true .ap 0#32 32#8)) = some .rowNotSelected := by decide

/-- K1. -/
theorem test_init : nextOf (exec .init State.reset) = some (st false .ap 0#32 32#8) := by decide
/-- K2. -/
theorem test_init_twice : refusalOf (exec .init (st false .ap 0#32 32#8)) = some .secondInit := by decide
/-- K7. -/
theorem test_start : nextOf (exec .start (st true .rb 0xF0000000#32 28#8)) = some (st true .ap 0#32 32#8) := by decide
/-- K3; T10: START does not clear the counter. -/
theorem test_start_corners :
    refusalOf (exec .start State.reset) = some .beforeInit ∧
    nextOf (exec .start (stT false .cp 200#8 false)) = some (stT true .ap 200#8 false) := by decide
/-- K10. -/
theorem test_stop :
    nextOf (exec .stop (st true .rb 0x40000000#32 30#8)) = some (st false .rb 0x40000000#32 30#8) := by decide
/-- K16: READ is true in pending-stop. -/
theorem test_read_true :
    nextOf (exec .read (st true .cp 0x20DF10EF#32 0#8)) =
      some { st true .cp 0x20DF10EF#32 0#8 with out := 0x20DF10EF#32, ok := true } := by decide
/-- S5: READ is false in RB and leaves `out` untouched. -/
theorem test_read_false :
    nextOf (exec .read { st true .rb 0x40000000#32 30#8 with out := 0x12345678#32, ok := true }) =
      some { st true .rb 0x40000000#32 30#8 with out := 0x12345678#32, ok := false } := by decide
/-- T2. -/
theorem test_tick : nextOf (exec .tick (stT false .ap 139#8 false)) = some (stT false .ap 140#8 false) := by decide
/-- T3. -/
theorem test_tick_wraps : nextOf (exec .tick (stT true .rb 255#8 false)) = some (stT true .rb 0#8 true) := by decide
/-- U3: a TICK before INIT runs; only the timer and the draw counter move. -/
theorem test_tick_before_init :
    (nextOf (exec .tick State.reset)).map (fun s => (s.configured, s.phase, s.rem, s.draws)) =
      some (false, .ap, 32#8, 1) := by decide
/-- T6: PRE from the counter; the flag is cleared. -/
theorem test_edge_levelT :
    nextOf (exec (.edge .high none) (stT true .ap 140#8 true)) = some (stT true .ag 0#8 false) := by decide
/-- H22. -/
theorem test_edge_unobserved :
    nextOf (exec (.edge .low (some 26#8)) (st false .rb 0x40000000#32 30#8)) =
      some (st false .rb 0x40000000#32 30#8) := by decide

/-- One step from reset with nothing placed is idle; INIT placed there runs. -/
theorem test_step_reset :
    nextOf (step State.reset) = some State.reset ∧
    nextOf (step (State.reset.withFetchWord 16 0x000)) = some (st false .ap 0#32 32#8) := by decide
/-- A classifier word placed after reset runs its row: PRE, cw 0x18C. -/
theorem test_step_row :
    nextOf (step (State.reset.withFetchWord 16 0x18C)) = some (st true .ag 0#32 32#8) := by decide

/-! ### Witnesses: for each statement with hypotheses, values that meet them (each clause at a boundary) -/

/-- The intervals used in the witnesses: every bit a 1, at the lowest accepted interval. -/
def ones : Nat → Tau := fun _ => 21#8

theorem witness_Spells : Spells 0xFFFFFFFF#32 ones 32 := by unfold Spells; decide

theorem witness_DecodeOfEncodeIsIdentity :
    (Instr.pre 159#8).wellFormed = true ∧ (Instr.xAgLB 40#8).wellFormed = true ∧ Instr.tick.wellFormed = true := by
  decide
theorem witness_EncodeOfDecodeIsIdentity :
    decodeEvent ⟨.levelT, 0x500#11⟩ = .ok (.edge .high none) ∧
    decodeEvent ⟨.levelA, 0x5FF#11⟩ = .ok (.edge .high (some 255#8)) := by decide
/-- Each of the four clauses at its two ends. -/
theorem witness_ReservedEventWordsRefused :
    ∀ n ∈ [0x600, 0x7FF, 0x004, 0x1FF, 0x201, 0x3FF],
      ((State.reset.deliver ⟨.levelA, BitVec.ofNat 11 n⟩).inputs = ⟨.levelA, BitVec.ofNat 11 n⟩ :: [] ∧
        (0x600 ≤ n ∨ (0x004 ≤ n ∧ n ≤ 0x1FF) ∨ (0x201 ≤ n ∧ n ≤ 0x3FF))) := by decide
theorem witness_ReservedEventWordsRefused_tau :
    (State.reset.deliver ⟨.levelT, 0x401#11⟩).inputs = ⟨.levelT, 0x401#11⟩ :: [] ∧
      0x400 ≤ (0x401#11).toNat ∧ (0x401#11).toNat % 256 ≠ 0 ∧ (0x5FF#11).toNat % 256 ≠ 0 := by decide
theorem witness_ReservedEventWordsRefused_words :
    ∀ n ∈ [0x000, 0x001, 0x002, 0x003, 0x200, 0x400, 0x500],
      (BitVec.ofNat 11 n).toNat ∈ [0x000, 0x001, 0x002, 0x003, 0x200, 0x400, 0x500] := by decide
theorem witness_TickWordRefusedAtLevelA :
    (State.reset.deliver ⟨.levelA, 0x200#11⟩).inputs = ⟨.levelA, 0x200#11⟩ :: [] := by decide
theorem witness_StepRunsTheDecodedEvent :
    (State.reset.deliver evInit).inputs = evInit :: [] ∧ decodeEvent evInit = .ok .init := by decide
theorem witness_StepWithoutEventIsIdle : State.reset.inputs = [] := by decide
theorem witness_ObservedEdgeAppliesItsRow : (st true .ap 0#32 32#8).armed = true := by decide
theorem witness_PlacedNumberIsRunNext :
    decodeTableWord 16 0x003 = some .read ∧ Instr.read.row? = none ∧
    decodeTableWord 16 0x7FF = some (.fin 255#8) ∧
    (Instr.fin 255#8).row? = some ⟨.cp, .high, 0, 255, 255#8⟩ := by decide

theorem witness_InitConfiguresOnce :
    State.reset.configured = false ∧ (st false .ap 0#32 32#8).configured = true := by decide
theorem witness_StartBeginsACapture :
    State.reset.configured = false ∧ (st true .rb 0xF0000000#32 28#8).configured = true := by decide
theorem witness_StopOnlyDisarms :
    State.reset.configured = false ∧
    (st true .cp 1#32 0#8).configured = true ∧ (st true .cp 1#32 0#8).pendingStop = true := by decide
theorem witness_ReadAnswersByPhase :
    State.reset.configured = false ∧
    (st true .cp 1#32 0#8).configured = true ∧ (st true .cp 1#32 0#8).phase = .cp ∧
    (st true .rb 1#32 1#8).configured = true ∧ (st true .rb 1#32 1#8).phase ≠ .cp := by decide
theorem witness_RepeatedReadsAgree : (st false .cp 1#32 0#8).configured = true := by decide
theorem witness_ControlBeforeInitRefused : State.reset.PowerOn := by decide
theorem witness_ConfiguredIsSetByInitOnly :
    exec .init State.reset = .next (st false .ap 0#32 32#8) ∧
    exec .stop (st true .rb 1#32 9#8) = .next (st false .rb 1#32 9#8) := ⟨rfl, rfl⟩

theorem witness_TickCounts :
    (stT true .rb 254#8 false).configured = true ∧ (stT true .rb 254#8 false).tcnt.toNat < 255 ∧
    (stT true .rb 255#8 false).configured = true ∧ (stT true .rb 255#8 false).tcnt.toNat = 255 := by decide
theorem witness_TickBeforeInitIsFree : State.reset.configured = false := by decide
theorem witness_TauIsTicksModulo256 :
    (stT true .ap 0#8 false).configured = true ∧ (stT true .ap 0#8 false).tcnt = 0#8 ∧
    (stT true .ap 0#8 false).armed = true := by decide
theorem witness_IntervalsAlias :
    (stT true .ap 7#8 false).configured = true ∧ (stT true .ap 7#8 false).armed = true := by decide
theorem witness_OnlyTickAndObservedEdgeMoveTimer :
    exec .tick (stT true .rb 255#8 false) = .next (stT true .rb 0#8 true) ∧
    exec (.edge .high none) (stT true .ap 140#8 true) = .next (stT true .ag 0#8 false) := ⟨rfl, rfl⟩

theorem witness_UnobservedEdgeChangesNothing : (st false .rb 1#32 9#8).armed = false := by decide
theorem witness_HandlerTransitionTable_disarmed : (st false .rb 1#32 9#8).armed = false := by decide
theorem witness_HandlerTransitionTable_ap :
    ∀ t ∈ [120#8, 121#8, 159#8, 160#8], (st true .ap 0#32 32#8).armed = true ∧
      (edgeTau (some t) (st true .ap 0#32 32#8)).toNat = t.toNat ∧ (st true .ap 0#32 32#8).phase = .ap := by decide
theorem witness_HandlerTransitionTable_ag :
    ∀ t ∈ [30#8, 31#8, 39#8, 40#8, 60#8, 61#8, 79#8, 80#8], (st true .ag 0#32 32#8).armed = true ∧
      (edgeTau (some t) (st true .ag 0#32 32#8)).toNat = t.toNat ∧ (st true .ag 0#32 32#8).phase = .ag := by decide
theorem witness_HandlerTransitionTable_rb :
    ∀ t ∈ [5#8, 6#8, 9#8, 10#8, 20#8, 21#8, 29#8, 30#8], (st true .rb 0#32 1#8).armed = true ∧
      (edgeTau (some t) (st true .rb 0#32 1#8)).toNat = t.toNat ∧ (st true .rb 0#32 1#8).phase = .rb ∧
      1 ≤ (st true .rb 0#32 1#8).rem.toNat ∧ (st true .rb 0#32 0#8).rem.toNat = 0 := by decide
theorem witness_HandlerTransitionTable_cp :
    ∀ t ∈ [0#8, 255#8], (st true .cp 0#32 0#8).armed = true ∧
      (edgeTau (some t) (st true .cp 0#32 0#8)).toNat = t.toNat ∧ (st true .cp 0#32 0#8).phase = .cp := by decide
theorem witness_PreRowEntersAwaitingGap :
    (st true .ap 0#32 32#8).armed = true ∧ (st true .ap 0#32 32#8).phase = .ap ∧
    120 < (121#8 : Tau).toNat ∧ (159#8 : Tau).toNat < 160 ∧ (120#8 : Tau).toNat ≤ 120 ∧ 160 ≤ (160#8 : Tau).toNat := by
  decide
theorem witness_GapRowEntersReceivingBits :
    (st true .ag 0#32 32#8).armed = true ∧ (st true .ag 0#32 32#8).phase = .ag ∧
    60 < (61#8 : Tau).toNat ∧ (79#8 : Tau).toNat < 80 ∧
    40 ≤ (40#8 : Tau).toNat ∧ (60#8 : Tau).toNat ≤ 60 ∧ 80 ≤ (80#8 : Tau).toNat := by decide
theorem witness_RptRowEntersComplete :
    (st true .ag 0#32 32#8).armed = true ∧ (st true .ag 0#32 32#8).phase = .ag ∧
    30 < (31#8 : Tau).toNat ∧ (39#8 : Tau).toNat < 40 ∧ (st true .ag 0#32 32#8).configured = true := by decide
/-- Both bit values, at the two ends of the counter. -/
theorem witness_BitRowsConsumeABit :
    ∀ r ∈ [1#8, 32#8], (st true .rb 0#32 r).armed = true ∧ (st true .rb 0#32 r).phase = .rb ∧
      1 ≤ (st true .rb 0#32 r).rem.toNat ∧ (20 < (29#8 : Tau).toNat ∧ (29#8 : Tau).toNat < 30) ∧
      (5 < (6#8 : Tau).toNat ∧ (6#8 : Tau).toNat < 10) := by decide
theorem witness_BitRowsConsumeABit_fault :
    (st true .rb 0#32 0#8).armed = true ∧ (st true .rb 0#32 0#8).phase = .rb ∧ (st true .rb 0#32 0#8).rem.toNat = 0 ∧
    5 < (9#8 : Tau).toNat ∧ (9#8 : Tau).toNat < 10 ∧ 20 < (21#8 : Tau).toNat ∧ (21#8 : Tau).toNat < 30 := by decide
theorem witness_BitRowsConsumeABit_noMatch :
    (5#8 : Tau).toNat ≤ 5 ∧ (10 ≤ (10#8 : Tau).toNat ∧ (20#8 : Tau).toNat ≤ 20) ∧ 30 ≤ (30#8 : Tau).toNat := by decide
theorem witness_FinRowDisarms : (st true .cp 1#32 0#8).armed = true ∧ (st true .cp 1#32 0#8).phase = .cp := by decide
/-- One armed state for each phase, and each row's `tau` at the bound next to a window. -/
theorem witness_NoMatchRowsResync :
    (∀ p ∈ [Phase.ap, Phase.ag, Phase.rb, Phase.cp], (st true p 0#32 32#8).armed = true ∧ (st true p 0#32 32#8).phase = p) ∧
    (120#8 : Tau).toNat ≤ 120 ∧ 160 ≤ (160#8 : Tau).toNat ∧ (30#8 : Tau).toNat ≤ 30 ∧
    (40 ≤ (60#8 : Tau).toNat ∧ (60#8 : Tau).toNat ≤ 60) ∧ 80 ≤ (80#8 : Tau).toNat ∧ (5#8 : Tau).toNat ≤ 5 ∧
    (10 ≤ (20#8 : Tau).toNat ∧ (20#8 : Tau).toNat ≤ 20) ∧ 30 ≤ (30#8 : Tau).toNat := by decide
theorem witness_RowsNotSelectedAreRefused :
    (Instr.b0 6#8).row? = some ⟨.rb, .low, 6, 9, 6#8⟩ ∧ (st false .rb 0#32 9#8).armed = false ∧
    (st true .ap 0#32 9#8).phase ≠ .rb ∧ (Instr.b0 10#8).row? = some ⟨.rb, .low, 6, 9, 10#8⟩ ∧
    (Instr.b0 10#8).wellFormed = false := by decide

theorem witness_PhaseChangesOnlyAtEdgeOrStart :
    exec (.pre 121#8) (st true .ap 0#32 32#8) = .next (st true .ag 0#32 32#8) ∧
    (st true .ag 0#32 32#8).phase ≠ (st true .ap 0#32 32#8).phase ∧
    exec (.edge .low (some 5#8)) (st true .rb 0#32 9#8) = .next (st true .ap 0#32 9#8) ∧
    classify .rb .low (edgeTau (some 5#8) (st true .rb 0#32 9#8)) = .x := ⟨rfl, by decide, rfl, by decide⟩
theorem witness_ArmedWriters :
    exec .start (st false .ap 0#32 32#8) = .next (st true .ap 0#32 32#8) ∧
    exec (.fin 0#8) (st true .cp 1#32 0#8) = .next (st false .cp 1#32 0#8) ∧
    exec .stop (st true .ap 0#32 32#8) = .next (st false .ap 0#32 32#8) := ⟨rfl, rfl, rfl⟩
theorem witness_AccAndRemWriters :
    exec (.b1 21#8) (st true .rb 0#32 32#8) = .next (st true .rb 0x80000000#32 31#8) ∧
    ¬((st true .rb 0x80000000#32 31#8).acc = (st true .rb 0#32 32#8).acc ∧
      (st true .rb 0x80000000#32 31#8).rem = (st true .rb 0#32 32#8).rem) := ⟨rfl, by decide⟩
theorem witness_OutIsWrittenOnlyByTrueRead :
    exec .read (st true .cp 7#32 0#8) = .next { st true .cp 7#32 0#8 with out := 7#32, ok := true } ∧
    exec .stop (st true .cp 7#32 0#8) = .next (st false .cp 7#32 0#8) := ⟨rfl, rfl⟩
theorem witness_HandlerRights :
    (Instr.fin 255#8).agent = .handler ∧
    exec (.fin 255#8) (st true .cp 1#32 0#8) = .next (st false .cp 1#32 0#8) := ⟨rfl, rfl⟩
theorem witness_FinalIsTerminalUntilStart :
    (st false .cp 1#32 0#8).configured = true ∧ (st false .cp 1#32 0#8).final = true ∧
    ∀ e ∈ [evEdge .low 0#8, evTick, evRead, evStop],
      ∃ i : Instr, decodeEvent e = .ok i ∧ i ≠ .init ∧ i ≠ .start := by
  refine ⟨by decide, by decide, ?_⟩
  intro e he
  fin_cases he
  · exact ⟨.edge .low (some 0#8), by decide, by decide, by decide⟩
  · exact ⟨.tick, by decide, by decide, by decide⟩
  · exact ⟨.read, by decide, by decide, by decide⟩
  · exact ⟨.stop, by decide, by decide, by decide⟩

theorem witness_InvariantKeptByStep :
    ((st true .rb 0x80000000#32 31#8).deliver (evEdge .low 21#8)).Inv ∧
    (step ((st true .rb 0x80000000#32 31#8).deliver (evEdge .low 21#8))) =
      .next (st true .rb 0xC0000000#32 30#8) := ⟨by decide, rfl⟩
theorem witness_StartEstablishesInvariant : (st false .ap 0xFFFFFFFF#32 255#8).configured = true := by decide

theorem witness_CleanCaptureDeliversTheWord :
    (st false .cp 7#32 3#8).configured = true ∧
    (∀ e ∈ [(Level.low, 200#8), (Level.high, 120#8)], classify .ap e.1 e.2 = .x) ∧
    inPreambleWindow 121#8 = true ∧ inGapWindow 79#8 = true ∧ Spells 0xFFFFFFFF#32 ones 32 ∧
    (0 : Nat) ≤ 32 :=
  ⟨by decide, by decide, by decide, by decide, witness_Spells, by decide⟩
theorem witness_StaleCounterMixesTwoFrames :
    ∀ r ∈ [1, 32], (st true .ap 0xF0000000#32 (BitVec.ofNat 8 r)).configured = true ∧
      (st true .ap 0xF0000000#32 (BitVec.ofNat 8 r)).armed = true ∧
      (st true .ap 0xF0000000#32 (BitVec.ofNat 8 r)).phase = .ap ∧
      (st true .ap 0xF0000000#32 (BitVec.ofNat 8 r)).rem.toNat = r ∧ 1 ≤ r ∧ r ≤ 32 ∧
      inPreambleWindow 121#8 = true ∧ inGapWindow 79#8 = true ∧ Spells 0xFFFFFFFF#32 ones 32 := by
  unfold Spells; decide
theorem witness_StaleCounterFrameIsNeverFinal :
    ∀ r ∈ [1, 31], (st true .ap 0xF0000000#32 (BitVec.ofNat 8 r)).configured = true ∧
      (st true .ap 0xF0000000#32 (BitVec.ofNat 8 r)).armed = true ∧
      (st true .ap 0xF0000000#32 (BitVec.ofNat 8 r)).phase = .ap ∧
      (st true .ap 0xF0000000#32 (BitVec.ofNat 8 r)).rem.toNat = r ∧ 1 ≤ r ∧ r ≤ 31 ∧
      inPreambleWindow 121#8 = true ∧ inGapWindow 79#8 = true ∧ Spells 0xFFFFFFFF#32 ones 32 ∧
      (120#8 : Tau).toNat ≤ 120 := by
  unfold Spells; decide
theorem witness_UnderflowIsReachable :
    (st false .ap 0#32 32#8).configured = true ∧ inPreambleWindow 121#8 = true ∧ inGapWindow 79#8 = true ∧
    Spells 0xFFFFFFFF#32 ones 32 ∧ inZeroWindow 6#8 = true ∧ inOneWindow 29#8 = true :=
  ⟨by decide, by decide, by decide, witness_Spells, by decide, by decide⟩
theorem witness_RepeatFrameKeepsAccumulator :
    (st true .ap 0xF0000000#32 28#8).configured = true ∧ (st true .ap 0xF0000000#32 28#8).armed = true ∧
    (st true .ap 0xF0000000#32 28#8).phase = .ap ∧ inPreambleWindow 159#8 = true ∧ inRepeatWindow 31#8 = true := by
  decide
theorem witness_ReadTrueCanBecomeFalse :
    (st true .cp 1#32 0#8).configured = true ∧ (st true .cp 1#32 0#8).pendingStop = true ∧
    (120#8 : Tau).toNat ≤ 120 := by decide
theorem witness_AlternatingLevelsConsumeNoBit :
    (st true .ap 0#32 32#8).phase = .ap ∧
    Alternates .low [(.high, 140#8), (.low, 70#8), (.high, 9#8), (.low, 26#8)] := by
  refine ⟨by decide, ?_⟩
  simp [Alternates]
theorem witness_LevelAStandsForLevelT : ∀ e ∈ [evStart, evTick, evEdgeT .high], e.iface = .levelT := by decide

end Sys2Proof.Tests
end

section
/-! PROOFS. The statements of spec/00_scope.md: the step. -/

namespace Sys2Proof.Machine

/-- A state with a pending event is the one that holds the other events, after that event was delivered to it. -/
theorem deliver_oldest_of_inputs_eq_cons {s : State} {e : Event} {rest : List Event} (h : s.inputs = e :: rest) :
    State.deliver e { s with inputs := rest } = s := by
  cases s
  cases h
  rfl

/-- Settles O8: taking the oldest pending event is taking the event just delivered to the state that holds the others. -/
theorem stepRunsTheDecodedEvent : Obligations.StepRunsTheDecodedEvent := by
  intro s e rest i hpending hdecode
  calc step s = stepEvent e { s with inputs := rest } :=
        congrArg step (deliver_oldest_of_inputs_eq_cons hpending).symm
    _ = exec i { s with inputs := rest } := stepEvent_of_decode hdecode _

end Sys2Proof.Machine
end

section
/-! PROOFS. The statements of spec/10_state.md: which instruction may write which register, and the invariant.
First the rules they share: what an instruction that goes on does to the five registers `configured`, `armed`, `phase`, `acc`
and `rem`. -/

namespace Sys2Proof.Machine

/-! ### States with the same registers -/

/-- `t` holds in the five registers what `s` holds: the timer, the consumer's cells, the events to come and the draws may
differ. -/
structure SameRegisters (s t : State) : Prop where
  configured : t.configured = s.configured
  armed : t.armed = s.armed
  phase : t.phase = s.phase
  acc : t.acc = s.acc
  rem : t.rem = s.rem

theorem SameRegisters.refl (s : State) : SameRegisters s s := ⟨rfl, rfl, rfl, rfl, rfl⟩

theorem SameRegisters.trans {s t u : State} (h : SameRegisters s t) (h' : SameRegisters t u) : SameRegisters s u :=
  ⟨h'.configured.trans h.configured, h'.armed.trans h.armed, h'.phase.trans h.phase, h'.acc.trans h.acc,
    h'.rem.trans h.rem⟩

/-- Clearing `armed` where it is clear already. -/
theorem sameRegisters_setArmed_false {s : State} (h : s.armed = false) : SameRegisters s (s.setArmed false) :=
  ⟨rfl, h.symm, rfl, rfl, rfl⟩

theorem sameRegisters_setInputs (s : State) (es : List Event) : SameRegisters s (s.setInputs es) :=
  ⟨rfl, rfl, rfl, rfl, rfl⟩

theorem sameRegisters_countTick (s : State) : SameRegisters s s.countTick := ⟨rfl, rfl, rfl, rfl, rfl⟩

theorem sameRegisters_drawTimer (s : State) : SameRegisters s s.drawTimer := ⟨rfl, rfl, rfl, rfl, rfl⟩

theorem sameRegisters_captureAndReset (s : State) : SameRegisters s s.captureAndReset := ⟨rfl, rfl, rfl, rfl, rfl⟩

theorem sameRegisters_answerRead (s : State) : SameRegisters s s.answerRead := by
  unfold State.answerRead
  split <;> exact ⟨rfl, rfl, rfl, rfl, rfl⟩

/-! ### What an instruction does to the registers -/

/-- In state `s` instruction `i` makes the handler act on symbol `y`: an observed edge that is classified `y`, or a selected
classifier row that stands for `y`. -/
inductive HandlerRuns (s : State) : Instr → Symbol → Prop where
  | edge (l : Level) (o : Option Tau) (harmed : s.armed = true) :
      HandlerRuns s (.edge l o) (classify s.phase l (edgeTau o s))
  | row {i : Instr} {y : Symbol} (hsymbol : i.symbol? = some y) (hselected : rowSelected i s = true) : HandlerRuns s i y

/-- What an instruction that goes on does to the registers: one case for each of their writers, and one for an instruction
other than INIT that leaves all five alone. -/
inductive RegisterEffect (s : State) : Instr → State → Prop where
  | init : RegisterEffect s .init ((s.setConfigured true).setArmed false)
  | start (hconfigured : s.configured = true) : RegisterEffect s .start s.beginCapture
  | stop : RegisterEffect s .stop (s.setArmed false)
  | keep {i : Instr} {t : State} (hinit : i ≠ .init) (hsame : SameRegisters s t) : RegisterEffect s i t
  | handler {i : Instr} {y : Symbol} {u t : State} (hrun : HandlerRuns s i y) (hsame : SameRegisters s u)
      (haction : symbolAction y u = .next t) : RegisterEffect s i t

theorem registerEffect_of_exec {i : Instr} {s t : State} (h : exec i s = .next t) : RegisterEffect s i t := by
  rcases exec_next h with ⟨rfl, -, rfl⟩ | ⟨rfl, hc, rfl⟩ | ⟨rfl, -, rfl⟩ | ⟨rfl, -, rfl⟩ | ⟨rfl, -, rfl⟩ |
    ⟨rfl, -, rfl⟩ | ⟨l, o, rfl, -, rfl⟩ | ⟨l, o, rfl, harmed, haction⟩ | ⟨y, hsymbol, hselected, haction⟩
  · exact .init
  · exact .start hc
  · exact .stop
  · exact .keep (by decide) (sameRegisters_answerRead s)
  · exact .keep (by decide) (sameRegisters_countTick s)
  · exact .keep (by decide) (sameRegisters_drawTimer s)
  · exact .keep (by simp) (.refl t)
  · exact .handler (.edge l o harmed) (sameRegisters_captureAndReset s) haction
  · exact .handler (.row hsymbol hselected) (.refl s) haction

/-! ### When the handler acts -/

/-- The handler acts only while the block is armed. -/
theorem HandlerRuns.armed {s : State} {i : Instr} {y : Symbol} (h : HandlerRuns s i y) : s.armed = true := by
  cases h with
  | edge l o harmed => exact harmed
  | row hsymbol hselected =>
    obtain ⟨-, -, harmed, -, -⟩ := rowSelected_iff.mp hselected
    exact harmed

/-- The handler's actions are steps of the handler (spec/60_exceptions.md R109). -/
theorem HandlerRuns.agent {s : State} {i : Instr} {y : Symbol} (h : HandlerRuns s i y) : i.agent = .handler := by
  cases h with
  | edge l o harmed => rfl
  | row hsymbol hselected =>
    cases i with
    | init | start | stop | read | tick | edge => cases hsymbol
    | _ => rfl

/-- The classifier answers FIN for a high-level edge in CP and for nothing else (spec/30_encoding.md R46). -/
theorem classify_eq_fin {p : Phase} {l : Level} {t : Tau} : classify p l t = .fin ↔ p = .cp ∧ l = .high := by
  cases p <;> cases l <;> simp [classify, ite_eq_iff]

/-- Only the row FIN stands for the symbol FIN. -/
theorem symbol?_eq_fin {i : Instr} (h : i.symbol? = some .fin) : ∃ tau, i = .fin tau := by
  cases i with
  | fin tau => exact ⟨tau, rfl⟩
  | _ => cases h

/-- FIN is an edge or a row in phase CP, and the edge is a high-level one. -/
theorem HandlerRuns.fin {s : State} {i : Instr} {y : Symbol} (h : HandlerRuns s i y) (hy : y = .fin) :
    s.phase = .cp ∧ ((∃ tau, i = .fin tau) ∨ ∃ o, i = .edge .high o) := by
  cases h with
  | edge l o harmed =>
    obtain ⟨hphase, rfl⟩ := classify_eq_fin.mp hy
    exact ⟨hphase, .inr ⟨o, rfl⟩⟩
  | row hsymbol hselected =>
    subst hy
    obtain ⟨tau, rfl⟩ := symbol?_eq_fin hsymbol
    obtain ⟨r, hrow, -, hphase, -⟩ := rowSelected_iff.mp hselected
    cases hrow
    exact ⟨hphase, .inl ⟨tau, rfl⟩⟩

/-! ### What the action of a symbol does to each register -/

section
variable {y : Symbol} {s t : State} (h : symbolAction y s = .next t)
include h

theorem symbolAction_configured : t.configured = s.configured := by
  rcases symbolAction_next h with
    ⟨-, rfl⟩ | ⟨-, rfl⟩ | ⟨-, rfl⟩ | ⟨_, -, -, rfl⟩ | ⟨-, rfl⟩ | ⟨-, rfl⟩ <;> rfl

/-- Only FIN writes `armed`. -/
theorem symbolAction_armed : t.armed = s.armed ∨ (y = .fin ∧ t.armed = false) := by
  rcases symbolAction_next h with
    ⟨-, rfl⟩ | ⟨-, rfl⟩ | ⟨-, rfl⟩ | ⟨_, -, -, rfl⟩ | ⟨hy, rfl⟩ | ⟨-, rfl⟩
  exacts [.inl rfl, .inl rfl, .inl rfl, .inl rfl, .inr ⟨hy, rfl⟩, .inl rfl]

/-- Only B0 and B1 write `acc` and `rem`. -/
theorem symbolAction_acc_rem : (t.acc = s.acc ∧ t.rem = s.rem) ∨ y = .b0 ∨ y = .b1 := by
  rcases symbolAction_next h with
    ⟨-, rfl⟩ | ⟨-, rfl⟩ | ⟨-, rfl⟩ | ⟨b, rfl, -, rfl⟩ | ⟨-, rfl⟩ | ⟨-, rfl⟩
  · exact .inl ⟨rfl, rfl⟩
  · exact .inl ⟨rfl, rfl⟩
  · exact .inl ⟨rfl, rfl⟩
  · exact .inr (by cases b <;> simp)
  · exact .inl ⟨rfl, rfl⟩
  · exact .inl ⟨rfl, rfl⟩

end

/-! ### The invariant -/

theorem SameRegisters.inv {s t : State} (h : SameRegisters s t) (hinv : s.Inv) : t.Inv := by
  simpa only [State.Inv, State.PendingBitsZero, h.configured, h.armed, h.acc, h.rem] using hinv

theorem inv_setArmed_false {s : State} (h : s.Inv) : (s.setArmed false).Inv := by
  obtain ⟨-, hrem, hzero⟩ := h
  exact ⟨nofun, hrem, hzero⟩

/-- START gives the invariant whatever `acc` and `rem` held. -/
theorem inv_beginCapture {s : State} (h : s.configured = true) : s.beginCapture.Inv :=
  ⟨fun _ => h, le_rfl, fun _ _ => BitVec.getLsbD_zero⟩

/-- Consume-bit writes the highest pending position, which is not pending any more; the ones below it stay 0. -/
theorem inv_takeBit {s : State} (h : s.Inv) (hne : s.rem ≠ 0#8) (b : Bool) : (s.takeBit b).Inv := by
  obtain ⟨hconf, hrem, hzero⟩ := h
  have hpred : (s.takeBit b).rem.toNat = s.rem.toNat - 1 := pred_toNat s.rem hne
  refine ⟨hconf, by omega, fun j hj => ?_⟩
  have hlow : j < (s.rem - 1#8).toNat := hj
  calc (s.takeBit b).acc.getLsbD j
      = if j = (s.rem - 1#8).toNat then b else s.acc.getLsbD j := writeBit_getLsbD _ _ _ _ (by omega)
    _ = s.acc.getLsbD j := if_neg hlow.ne
    _ = false := hzero j (by omega)

theorem inv_symbolAction {y : Symbol} {s t : State} (hinv : s.Inv) (h : symbolAction y s = .next t) : t.Inv := by
  rcases symbolAction_next h with
    ⟨-, rfl⟩ | ⟨-, rfl⟩ | ⟨-, rfl⟩ | ⟨b, -, hne, rfl⟩ | ⟨-, rfl⟩ | ⟨-, rfl⟩
  exacts [hinv, hinv, hinv, inv_takeBit hinv hne b, inv_setArmed_false hinv, hinv]

theorem inv_exec {i : Instr} {s t : State} (hinv : s.Inv) (h : exec i s = .next t) : t.Inv := by
  cases registerEffect_of_exec h with
  | init =>
    obtain ⟨-, hrem, hzero⟩ := hinv
    exact ⟨nofun, hrem, hzero⟩
  | start hconfigured => exact inv_beginCapture hconfigured
  | stop => exact inv_setArmed_false hinv
  | keep hinit hsame => exact hsame.inv hinv
  | handler hrun hsame haction => exact inv_symbolAction (hsame.inv hinv) haction

/-- A step that goes on was idle, or executed what the oldest pending event spells. -/
theorem step_next {s t : State} (h : step s = .next t) :
    (s.inputs = [] ∧ t = s) ∨
      ∃ e rest i, s.inputs = e :: rest ∧ decodeEvent e = .ok i ∧ exec i (s.setInputs rest) = .next t := by
  cases hpending : s.inputs with
  | nil =>
    have hidle : step s = .next s := by simp [step, State.takeEvent, hpending]
    rw [hidle] at h
    cases h
    exact .inl ⟨rfl, rfl⟩
  | cons e rest =>
    cases hdecode : decodeEvent e with
    | ok i => exact .inr ⟨e, rest, i, rfl, hdecode, (stepRunsTheDecodedEvent s e rest i hpending hdecode).symm.trans h⟩
    | error r => simp [step, State.takeEvent, hpending, hdecode] at h

/-- Settles O41: the events to come are not in the invariant, and every effect an instruction has on the registers keeps it;
consume-bit by `inv_takeBit`. -/
theorem invariantKeptByStep : Obligations.InvariantKeptByStep := by
  intro s t hinv hstep
  rcases step_next hstep with ⟨-, rfl⟩ | ⟨_, rest, i, -, -, hexec⟩
  · exact hinv
  · exact inv_exec ((sameRegisters_setInputs s rest).inv hinv) hexec

/-- Settles O42: the clause on `acc` holds because reset's `acc` is 0. -/
theorem invariantAtReset : Obligations.InvariantAtReset :=
  ⟨⟨rfl, rfl⟩, nofun, by decide, fun _ _ => BitVec.getLsbD_zero⟩

/-! ### Who writes each register -/

/-- Settles O19: START runs only where `configured` holds, and no other instruction but INIT writes it. -/
theorem configuredIsSetByInitOnly : Obligations.ConfiguredIsSetByInitOnly := by
  intro i s t h
  cases registerEffect_of_exec h with
  | init => simp
  | start hconfigured => simp [beginCapture_eq, hconfigured]
  | stop => simp
  | keep hinit hsame => simp [hsame.configured, hinit]
  | handler hrun hsame haction =>
    have hinit : i ≠ .init := by rintro rfl; cases hrun.agent
    simp [symbolAction_configured haction, hsame.configured, hinit]

/-- Settles O35: every effect but START's and the handler's leaves `phase` alone, and the action of X is `phase <- AP`. -/
theorem phaseChangesOnlyAtEdgeOrStart : Obligations.PhaseChangesOnlyAtEdgeOrStart := by
  intro i s t h
  refine ⟨fun hchanged => ?_, ?_⟩
  · cases registerEffect_of_exec h with
    | init => exact absurd rfl hchanged
    | start hconfigured => exact .inl rfl
    | stop => exact absurd rfl hchanged
    | keep hinit hsame => exact absurd hsame.phase hchanged
    | handler hrun hsame haction => exact .inr ⟨hrun.agent, hrun.armed⟩
  · rintro l o rfl harmed hx
    rcases takeEdgeInterrupt_next h with ⟨hdisarmed, -⟩ | ⟨-, haction⟩
    · simp [harmed] at hdisarmed
    · rw [hx] at haction
      cases haction
      rfl

/-- Settles O36: of the handler's actions only FIN writes `armed`, and FIN needs phase CP. -/
theorem armedWriters : Obligations.ArmedWriters := by
  intro i s t h
  cases registerEffect_of_exec h with
  | init => simp
  | start hconfigured => simp [beginCapture_eq]
  | stop => simp
  | keep hinit hsame => simp +contextual [hsame.armed]
  | handler hrun hsame haction =>
    refine ⟨fun hdisarmed => by simp [hrun.armed] at hdisarmed, fun harmed hfell => ?_⟩
    rcases symbolAction_armed haction with hkept | ⟨hfin, -⟩
    · simp [hkept, hsame.armed, harmed] at hfell
    · obtain ⟨hphase, hrow | hedge⟩ := hrun.fin hfin
      · exact .inr (.inr (.inl ⟨hphase, hrow⟩))
      · exact .inr (.inr (.inr ⟨hphase, hedge⟩))

/-- Settles O37: of the handler's actions only B0 and B1 write `acc` and `rem`. -/
theorem accAndRemWriters : Obligations.AccAndRemWriters := by
  intro i s t h hchanged
  cases registerEffect_of_exec h with
  | init => exact absurd ⟨rfl, rfl⟩ hchanged
  | start hconfigured => exact .inl rfl
  | stop => exact absurd ⟨rfl, rfl⟩ hchanged
  | keep hinit hsame => exact absurd ⟨hsame.acc, hsame.rem⟩ hchanged
  | handler hrun hsame haction =>
    rcases symbolAction_acc_rem haction with ⟨hacc, hrem⟩ | hbit
    · exact absurd ⟨hacc.trans hsame.acc, hrem.trans hsame.rem⟩ hchanged
    · cases hrun with
      | edge l o harmed => exact .inr (.inr (.inr ⟨l, o, rfl, harmed, hbit⟩))
      | row hsymbol hselected => rcases hbit with rfl | rfl <;> simp [hsymbol]

/-! ### The final sub-state -/

/-- An event word spells an operation, never a classifier row (spec/30_encoding.md R40, R41). -/
theorem symbol?_of_decodeEvent {e : Event} {i : Instr} (h : decodeEvent e = .ok i) : i.symbol? = none := by
  unfold decodeEvent decodeOp at h
  repeat' split at h
  all_goals cases h <;> rfl

/-- In a configured, disarmed block every operation but INIT and START goes on and leaves the registers alone. -/
theorem exec_disarmed {i : Instr} {s : State} (hconfigured : s.configured = true) (hdisarmed : s.armed = false)
    (hoperation : i.symbol? = none) (hinit : i ≠ .init) (hstart : i ≠ .start) :
    ∃ t, exec i s = .next t ∧ SameRegisters s t := by
  cases i with
  | init => exact absurd rfl hinit
  | start => exact absurd rfl hstart
  | stop => exact ⟨_, by simp [exec, execStop, hconfigured], sameRegisters_setArmed_false hdisarmed⟩
  | read => exact ⟨_, by simp [exec, execRead, hconfigured], sameRegisters_answerRead s⟩
  | tick => exact ⟨_, by simp [exec, execTick, hconfigured], sameRegisters_countTick s⟩
  | edge l o => exact ⟨s, by simp [exec, execEdge, takeEdgeInterrupt, hdisarmed], .refl s⟩
  | _ => cases hoperation

/-- So do any number of them. -/
theorem runEvents_disarmed {es : List Event} {s : State} (hconfigured : s.configured = true) (hdisarmed : s.armed = false)
    (hevents : ∀ e ∈ es, ∃ i : Instr, decodeEvent e = .ok i ∧ i ≠ .init ∧ i ≠ .start) :
    ∃ t, runEvents es s = .next t ∧ SameRegisters s t := by
  induction es generalizing s with
  | nil => exact ⟨s, rfl, .refl s⟩
  | cons e es ih =>
    obtain ⟨⟨i, hdecode, hinit, hstart⟩, hrest⟩ := List.forall_mem_cons.mp hevents
    obtain ⟨u, hexec, hu⟩ := exec_disarmed hconfigured hdisarmed (symbol?_of_decodeEvent hdecode) hinit hstart
    obtain ⟨t, hrun, ht⟩ := ih (hu.configured.trans hconfigured) (hu.armed.trans hdisarmed) hrest
    have hstep : stepEvent e s = .next u := (stepEvent_of_decode hdecode s).trans hexec
    exact ⟨t, (runEvents_cons_next hstep).trans hrun, hu.trans ht⟩

/-- Settles O40: the final sub-state is disarmed, and that alone makes it terminal. -/
theorem finalIsTerminalUntilStart : Obligations.FinalIsTerminalUntilStart := by
  intro s es hconfigured hfinal hevents
  have hdisarmed : s.armed = false := by simp_all [State.final]
  obtain ⟨t, hrun, hsame⟩ := runEvents_disarmed hconfigured hdisarmed hevents
  exact ⟨t, hrun, hsame.armed, hsame.phase, hsame.acc, hsame.rem⟩

/-! ### The overflow flag -/

/-- Two results under one condition look the same through a view if their branches do. -/
theorem mapNext_ite_congr {α : Type} {f : State → α} {c : Prop} [Decidable c] {a a' b b' : Result}
    (ha : mapNext f a = mapNext f a') (hb : mapNext f b = mapNext f b') :
    mapNext f (if c then a else b) = mapNext f (if c then a' else b') := by
  split
  · exact ha
  · exact hb

/-- The action of a symbol does not read `ovf`. -/
theorem symbolAction_forgetOvf (y : Symbol) (s : State) :
    mapNext State.forgetOvf (symbolAction y s.forgetOvf) = mapNext State.forgetOvf (symbolAction y s) := by
  cases y with
  | b0 | b1 => exact mapNext_ite_congr rfl rfl
  | _ => rfl

/-- READ's answer does not read `ovf`. -/
theorem answerRead_forgetOvf (s : State) : s.forgetOvf.answerRead.forgetOvf = s.answerRead.forgetOvf := by
  simp only [State.answerRead, apply_ite State.forgetOvf]
  rfl

/-- Settles O25: no condition reads `ovf`, and neither does what the instruction then does; an observed edge clears it before
the action of its symbol. -/
theorem overflowFlagIsReadByNothing : Obligations.OverflowFlagIsReadByNothing := by
  intro i s
  cases i with
  | init | start | stop | tick => exact mapNext_ite_congr rfl rfl
  | read => exact mapNext_ite_congr (congrArg Host.Outcome.next (answerRead_forgetOvf s)) rfl
  | edge l o => exact mapNext_ite_congr rfl rfl
  | _ =>
    rw [exec_row rfl, exec_row rfl]
    exact mapNext_ite_congr (symbolAction_forgetOvf _ s) rfl

end Sys2Proof.Machine
end

section
/-! PROOFS. The statements of spec/20_memory.md: READ and the consumer's cells, and the order in which queued events are
applied. -/

namespace Sys2Proof.Machine

/-! ### READ and the consumer's cells -/

/-- READ's answer in one equation: it writes `out` and `ok` alone (spec/20_memory.md R31, R35). -/
theorem answerRead_eq (s : State) :
    s.answerRead = { s with out := if s.phase = .cp then s.acc else s.out, ok := s.readable } := by
  by_cases hphase : s.phase = .cp
  · simp [answerRead_of_readable s hphase, State.readable, hphase]
  · simp [answerRead_of_not_readable s hphase, State.readable, hphase]

/-- READ tests and copies registers it does not write, so the second answer is the first. -/
theorem answerRead_answerRead (s : State) : s.answerRead.answerRead = s.answerRead := by
  by_cases hphase : s.phase = .cp <;> simp [answerRead_eq, State.readable, hphase]

/-- READ in a configured block. -/
theorem stepEvent_evRead {s : State} (h : s.configured = true) : stepEvent evRead s = .next s.answerRead := by
  simp [stepEvent_of_decode decodeEvent_evRead, exec, execRead, h]

/-- One READ or more leave the one answer. -/
theorem runEvents_replicate_evRead {s : State} (h : s.configured = true) (n : Nat) :
    runEvents (List.replicate (n + 1) evRead) s = .next s.answerRead := by
  induction n generalizing s with
  | zero => exact runEvents_cons_next (stepEvent_evRead h)
  | succ n ih =>
    have hconfigured : s.answerRead.configured = true := (sameRegisters_answerRead s).configured.trans h
    calc runEvents (List.replicate (n + 2) evRead) s
        = runEvents (List.replicate (n + 1) evRead) s.answerRead := runEvents_cons_next (stepEvent_evRead h)
      _ = .next s.answerRead.answerRead := ih hconfigured
      _ = .next s.answerRead := by rw [answerRead_answerRead]

/-- Settles O17: one READ or more leave the one answer, which is written to the consumer's cells alone. -/
theorem repeatedReadsAgree : Obligations.RepeatedReadsAgree := by
  intro s n hconfigured
  have hreads := runEvents_replicate_evRead hconfigured
  refine ⟨(hreads n).trans (hreads 0).symm, ?_⟩
  cases n with
  | zero => exact ⟨s.out, s.ok, rfl⟩
  | succ n => exact ⟨_, _, (hreads n).trans (congrArg _ (answerRead_eq s))⟩

/-- No action of the handler writes the consumer's cell (spec/20_memory.md R31). -/
theorem symbolAction_out {y : Symbol} {s t : State} (h : symbolAction y s = .next t) : t.out = s.out := by
  rcases symbolAction_next h with
    ⟨-, rfl⟩ | ⟨-, rfl⟩ | ⟨-, rfl⟩ | ⟨_, -, -, rfl⟩ | ⟨-, rfl⟩ | ⟨-, rfl⟩ <;> rfl

/-- Settles O38: of everything an instruction can do, only READ's answer reaches `out`. -/
theorem outIsWrittenOnlyByTrueRead : Obligations.OutIsWrittenOnlyByTrueRead := by
  intro i s t h
  rcases exec_next h with ⟨rfl, -, rfl⟩ | ⟨rfl, -, rfl⟩ | ⟨rfl, -, rfl⟩ | ⟨rfl, -, rfl⟩ | ⟨rfl, -, rfl⟩ |
    ⟨rfl, -, rfl⟩ | ⟨l, o, rfl, -, rfl⟩ | ⟨l, o, rfl, -, haction⟩ | ⟨y, hsymbol, -, haction⟩
  · simp
  · simp [beginCapture_eq]
  · simp
  · simp [answerRead_eq]
  · simp [countTick_eq]
  · simp [State.drawTimer]
  · simp
  · simp [symbolAction_out haction, captureAndReset_eq]
  · have hread : i ≠ .read := by rintro rfl; cases hsymbol
    simp [symbolAction_out haction, hread]

/-! ### The events to come -/

/-- A choice between two viewed results is the view of the choice. -/
theorem ite_eq_mapNext {α : Type} {f : State → α} {c : Prop} [Decidable c] {a b : Result}
    {a' b' : Host.Outcome α Fault Refusal} (ha : a' = mapNext f a) (hb : b' = mapNext f b) :
    (if c then a' else b') = mapNext f (if c then a else b) := by
  rw [ha, hb, apply_ite (mapNext f)]

section
variable (s : State) (es : List Event)

theorem answerRead_setInputs : (s.setInputs es).answerRead = s.answerRead.setInputs es := by
  simp only [answerRead_eq]
  rfl

theorem symbolAction_setInputs (y : Symbol) :
    symbolAction y (s.setInputs es) = mapNext (State.setInputs · es) (symbolAction y s) := by
  cases y with
  | b0 | b1 => exact ite_eq_mapNext rfl rfl
  | _ => rfl

/-- No instruction reads or writes the events to come: with other events pending it does the same to everything else. -/
theorem exec_setInputs (i : Instr) : exec i (s.setInputs es) = mapNext (State.setInputs · es) (exec i s) := by
  cases i with
  | init | start | stop | tick => exact ite_eq_mapNext rfl rfl
  | read => exact ite_eq_mapNext (congrArg Host.Outcome.next (answerRead_setInputs s es)) rfl
  | edge l o => exact ite_eq_mapNext (symbolAction_setInputs s.captureAndReset es _) rfl
  | _ =>
    rw [exec_row rfl, exec_row rfl]
    exact ite_eq_mapNext (symbolAction_setInputs s es _) rfl

/-- So with a delivered event, whether it spells an instruction or none. -/
theorem stepEvent_setInputs (e : Event) :
    stepEvent e (s.setInputs es) = mapNext (State.setInputs · es) (stepEvent e s) := by
  cases hdecode : decodeEvent e with
  | ok i => simp only [stepEvent_of_decode hdecode, exec_setInputs]
  | error r => simp only [stepEvent_of_reject hdecode, mapNext]

end

/-- A delivered event that goes on is used up, and the events pending before it are pending after it. -/
theorem stepEvent_inputs {e : Event} {s t : State} (h : stepEvent e s = .next t) : t.inputs = s.inputs := by
  have hsame : stepEvent e s = .next (t.setInputs s.inputs) :=
    (stepEvent_setInputs s s.inputs e).trans (by rw [h]; rfl)
  have ht : t = t.setInputs s.inputs := Host.Outcome.next.inj (h.symm.trans hsame)
  rw [ht, setInputs_inputs]

/-! ### Queued events -/

section
variable {M : Host.Core} {s : M.State} (k : Nat)

/-- The next step of a run, where it goes on. -/
theorem coreRun_succ_next {t : M.State} (h : M.step s = .next t) : M.run (k + 1) s = M.run k t := by
  rw [Host.Core.run, h]

/-- The next step of a run, where it faults. -/
theorem coreRun_succ_fault {f : M.Fault} (h : M.step s = .fault f) : M.run (k + 1) s = .fault f := by
  rw [Host.Core.run, h]

/-- The next step of a run, where it is refused. -/
theorem coreRun_succ_refused {r : M.Refusal} (h : M.step s = .refused r) : M.run (k + 1) s = .refused r := by
  rw [Host.Core.run, h]

end

/-- A step with events queued takes the oldest one and does what its delivery alone does, with the later ones kept. -/
theorem step_queued (e : Event) (es : List Event) (s : State) :
    step { s with inputs := e :: es } = mapNext (State.setInputs · es) (stepEvent e s) :=
  stepEvent_setInputs s es e

/-- Settles O10, by induction on the queued events: each step does what the delivery of its event alone does
(`step_queued`), and where it goes on, the later events stand before the ones that were pending. -/
theorem queuedEventsRunInOrder : Obligations.QueuedEventsRunInOrder := by
  intro es
  induction es with
  | nil => exact fun s => rfl
  | cons e es ih =>
    intro s
    have hstep := step_queued e (es ++ s.inputs) s
    cases hevent : stepEvent e s with
    | next t =>
      rw [hevent] at hstep
      rw [runEvents_cons_next hevent, ← ih t, stepEvent_inputs hevent]
      exact coreRun_succ_next es.length hstep
    | fault f =>
      rw [hevent] at hstep
      rw [runEvents_cons_fault hevent]
      exact coreRun_succ_fault es.length hstep
    | refused r =>
      rw [hevent] at hstep
      rw [runEvents_cons_refused hevent]
      exact coreRun_succ_refused es.length hstep

end Sys2Proof.Machine
end

section
/-! PROOFS. The statements of spec/30_encoding.md: words and their fields, the rows of the table, the event words, the
classifier, and the edges and placed numbers that run a row. -/

namespace Sys2Proof.Machine

/-! ### A classifier word is its three fields -/

theorem phaseCode_phaseOfCode (c : BitVec 2) : phaseCode (phaseOfCode c) = c := by
  revert c; decide

theorem levelCode_levelField (w : Word11) : levelCode (levelField w) = w.extractLsb' 8 1 := by
  have hbit : w.extractLsb' 8 1 = BitVec.ofBool (w.getLsbD 8) := BitVec.eq_of_getLsbD_eq (by simp)
  rw [hbit, levelField]
  cases w.getLsbD 8 <;> rfl

/-- The three fields are adjacent and fill the word. -/
theorem classifierWord_of_fields (w : Word11) :
    classifierWord (phaseOfCode (topField w)) (levelField w) (tauField w) = w := by
  have htop : w.extractLsb' 9 2 ++ w.extractLsb' 8 1 = w.extractLsb' 8 3 :=
    BitVec.extractLsb'_append_extractLsb'_eq_extractLsb' rfl
  have hall : w.extractLsb' 8 3 ++ w.extractLsb' 0 8 = w.extractLsb' 0 11 :=
    BitVec.extractLsb'_append_extractLsb'_eq_extractLsb' rfl
  rw [classifierWord, phaseCode_phaseOfCode, levelCode_levelField, topField, tauField, htop, hall,
    BitVec.extractLsb'_eq_self]

theorem classifierWord_toNat (p : Phase) (l : Level) (t : Tau) :
    (classifierWord p l t).toNat = 512 * (phaseCode p).toNat + 256 * (levelCode l).toNat + t.toNat := by
  rw [classifierWord, BitVec.toNat_append, ← Nat.shiftLeft_add_eq_or_of_lt t.isLt, BitVec.toNat_append,
    ← Nat.shiftLeft_add_eq_or_of_lt (levelCode l).isLt, Nat.shiftLeft_eq, Nat.shiftLeft_eq]
  omega

theorem classifierWord_inj {p p' : Phase} {l l' : Level} {t t' : Tau} :
    classifierWord p l t = classifierWord p' l' t' ↔ p = p' ∧ l = l' ∧ t = t' := by
  refine ⟨fun h => ?_, by rintro ⟨rfl, rfl, rfl⟩; rfl⟩
  obtain ⟨hp, hl, ht⟩ := classifierWord_fields p l t
  obtain ⟨hp', hl', ht'⟩ := classifierWord_fields p' l' t'
  rw [h] at hp hl ht
  exact ⟨hp.symm.trans hp', hl.symm.trans hl', ht.symm.trans ht'⟩

@[simp] theorem decodeClassifier_classifierWord (p : Phase) (l : Level) (t : Tau) :
    decodeClassifier (classifierWord p l t) = rowOf p l t := by
  obtain ⟨hp, hl, ht⟩ := classifierWord_fields p l t
  rw [decodeClassifier, hp, hl, ht]

/-- An EDGE word has the layout of a classifier word of phase RB: kind 2 is RB's code. -/
theorem edgeWord_toNat (l : Level) (t : Tau) :
    (edgeWord l t).toNat = 0x400 + 256 * (levelCode l).toNat + t.toNat :=
  classifierWord_toNat .rb l t

theorem edgeWord_eq_add (l : Level) (t : Tau) : edgeWord l t = edgeWord l 0#8 + t.setWidth 11 := by
  have hlevel := (levelCode l).isLt
  have htau := t.isLt
  apply BitVec.eq_of_toNat_eq
  rw [BitVec.toNat_add, edgeWord_toNat, edgeWord_toNat, BitVec.toNat_setWidth]
  simp only [BitVec.toNat_ofNat]
  omega

/-! ### The rows of the table (spec/30_encoding.md R46, R48) -/

theorem holdsTau_iff {r : Row} : r.holdsTau = true ↔ r.tauMin ≤ r.tau.toNat ∧ r.tau.toNat ≤ r.tauMax := by
  simp [Row.holdsTau]

/-- The row given for a triple is a row of its phase and level, carries its `tau` and holds it. -/
theorem rowOf_holds (p : Phase) (l : Level) (t : Tau) :
    ∃ lo hi, (rowOf p l t).row? = some ⟨p, l, lo, hi, t⟩ ∧ lo ≤ t.toNat ∧ t.toNat ≤ hi := by
  have hmax : t.toNat ≤ 255 := Nat.le_of_lt_succ t.isLt
  cases p <;> cases l
  case ap.low => exact ⟨0, 255, rfl, by omega, hmax⟩
  case ap.high =>
    simp only [rowOf, decodeApHigh]
    split_ifs <;> exact ⟨_, _, rfl, by omega, by omega⟩
  case ag.low =>
    simp only [rowOf, decodeAgLow]
    split_ifs <;> exact ⟨_, _, rfl, by omega, by omega⟩
  case ag.high => exact ⟨0, 255, rfl, by omega, hmax⟩
  case rb.low =>
    simp only [rowOf, decodeRbLow]
    split_ifs <;> exact ⟨_, _, rfl, by omega, by omega⟩
  case rb.high => exact ⟨0, 255, rfl, by omega, hmax⟩
  case cp.low => exact ⟨0, 255, rfl, by omega, hmax⟩
  case cp.high => exact ⟨0, 255, rfl, by omega, hmax⟩

/-- A row that holds a triple is the row given for it: the ranges of one phase and level do not overlap. -/
theorem rowOf_eq_of_holds {i : Instr} {r : Row} (hrow : i.row? = some r) (hlo : r.tauMin ≤ r.tau.toNat)
    (hhi : r.tau.toNat ≤ r.tauMax) : rowOf r.phase r.level r.tau = i := by
  cases i with
  | init | start | stop | read | tick | edge => cases hrow
  | pre t | xApHLo t | xApHHi t => cases hrow; grind [rowOf, decodeApHigh]
  | gap t | rpt t | xAgLA t | xAgLB t | xAgLC t => cases hrow; grind [rowOf, decodeAgLow]
  | b0 t | b1 t | xRbLA t | xRbLB t | xRbLC t => cases hrow; grind [rowOf, decodeRbLow]
  | _ => cases hrow; rfl

/-- Exactly one row holds a triple. -/
theorem rowOf_eq_iff {p : Phase} {l : Level} {t : Tau} {i : Instr} :
    rowOf p l t = i ↔ ∃ lo hi, i.row? = some ⟨p, l, lo, hi, t⟩ ∧ lo ≤ t.toNat ∧ t.toNat ≤ hi := by
  constructor
  · rintro rfl
    exact rowOf_holds p l t
  · rintro ⟨lo, hi, hrow, hlo, hhi⟩
    exact rowOf_eq_of_holds hrow hlo hhi

/-- The code of a row is the word of its phase, its level and the `tau` it carries. -/
theorem encode_of_row {i : Instr} {r : Row} (hrow : i.row? = some r) :
    encode i = .classifier (classifierWord r.phase r.level r.tau) := by
  cases i with
  | init | start | stop | read | tick | edge => cases hrow
  | _ => cases hrow; simp [encode, classifierWord, phaseCode, levelCode]

/-- All rows have one mask, and a row's match is the word of its phase and level with `tau` 0. -/
theorem maskMatch_of_row {i : Instr} {r : Row} (hrow : i.row? = some r) :
    i.maskMatch = (0x700#11, classifierWord r.phase r.level 0#8) := by
  cases i with
  | init | start | stop | read | tick | edge => cases hrow
  | _ => cases hrow; simp [Instr.maskMatch, classifierWord, phaseCode, levelCode]

/-! ### The classifier (spec/30_encoding.md R46) -/

section
variable {p : Phase} {l : Level} {t : Tau}

/-- An open window of ticks is a closed range of integers (spec/30_encoding.md R45). -/
theorem inWindow_iff {lo hi : Nat} : inWindow lo (hi + 1) t = true ↔ lo + 1 ≤ t.toNat ∧ t.toNat ≤ hi := by
  simp [inWindow]

@[simp] theorem inPreambleWindow_iff : inPreambleWindow t = true ↔ 121 ≤ t.toNat ∧ t.toNat ≤ 159 := inWindow_iff
@[simp] theorem inGapWindow_iff : inGapWindow t = true ↔ 61 ≤ t.toNat ∧ t.toNat ≤ 79 := inWindow_iff
@[simp] theorem inRepeatWindow_iff : inRepeatWindow t = true ↔ 31 ≤ t.toNat ∧ t.toNat ≤ 39 := inWindow_iff
@[simp] theorem inZeroWindow_iff : inZeroWindow t = true ↔ 6 ≤ t.toNat ∧ t.toNat ≤ 9 := inWindow_iff
@[simp] theorem inOneWindow_iff : inOneWindow t = true ↔ 21 ≤ t.toNat ∧ t.toNat ≤ 29 := inWindow_iff

theorem classify_eq_pre : classify p l t = .pre ↔ p = .ap ∧ l = .high ∧ 121 ≤ t.toNat ∧ t.toNat ≤ 159 := by
  cases p <;> cases l <;> simp [classify, ite_eq_iff]

theorem classify_eq_gap : classify p l t = .gap ↔ p = .ag ∧ l = .low ∧ 61 ≤ t.toNat ∧ t.toNat ≤ 79 := by
  cases p <;> cases l <;> simp [classify, ite_eq_iff]

theorem classify_eq_rpt : classify p l t = .rpt ↔ p = .ag ∧ l = .low ∧ 31 ≤ t.toNat ∧ t.toNat ≤ 39 := by
  cases p <;> cases l <;> simp [classify, ite_eq_iff]
  omega

theorem classify_eq_b0 : classify p l t = .b0 ↔ p = .rb ∧ l = .low ∧ 6 ≤ t.toNat ∧ t.toNat ≤ 9 := by
  cases p <;> cases l <;> simp [classify, ite_eq_iff]

theorem classify_eq_b1 : classify p l t = .b1 ↔ p = .rb ∧ l = .low ∧ 21 ≤ t.toNat ∧ t.toNat ≤ 29 := by
  cases p <;> cases l <;> simp [classify, ite_eq_iff]
  omega

end

/-- Settles O6: X is the one symbol left when the other six are excluded. -/
theorem classifierTable : Obligations.ClassifierTable := by
  intro p l t
  refine ⟨classify_eq_pre, classify_eq_gap, classify_eq_rpt, classify_eq_b0, classify_eq_b1, classify_eq_fin, ?_⟩
  rw [← classify_eq_pre, ← classify_eq_gap, ← classify_eq_rpt, ← classify_eq_b0, ← classify_eq_b1,
    ← classify_eq_fin (t := t)]
  cases classify p l t <;> decide

/-- The strict windows of the classifier and the inclusive ranges of the rows give one symbol. -/
theorem symbol?_rowOf (p : Phase) (l : Level) (t : Tau) : (rowOf p l t).symbol? = some (classify p l t) := by
  cases p <;> cases l
  case ap.high => grind [rowOf, decodeApHigh, Instr.symbol?, classify, inPreambleWindow_iff]
  case ag.low => grind [rowOf, decodeAgLow, Instr.symbol?, classify, inGapWindow_iff, inRepeatWindow_iff]
  case rb.low => grind [rowOf, decodeRbLow, Instr.symbol?, classify, inZeroWindow_iff, inOneWindow_iff]
  all_goals rfl

/-- The mask of the rows keeps phase and level. -/
theorem and_mask_eq_iff {cw : Word11} {p : Phase} {l : Level} :
    cw &&& 0x700#11 = classifierWord p l 0#8 ↔ phaseOfCode (topField cw) = p ∧ levelField cw = l := by
  have hmask : cw &&& 0x700#11 = classifierWord (phaseOfCode (topField cw)) (levelField cw) 0#8 := by
    conv_lhs => rw [← classifierWord_of_fields cw]
    exact Sys2Proof.Laws.RowBits.fixed_over_tau _ _
  rw [hmask, classifierWord_inj]
  simp

/-- Settles O7: a row's mask and match are its phase and level (`maskMatch_of_row`), and one row holds the triple of the word's
fields. -/
theorem rowsPartitionClassifierWords : Obligations.RowsPartitionClassifierWords := by
  intro cw
  refine ⟨fun i => ?_, symbol?_rowOf _ _ _⟩
  rw [eq_comm (a := i), decodeClassifier, rowOf_eq_iff]
  constructor
  · rintro ⟨⟨p, l, lo, hi, t⟩, hrow, hbits, rfl, hlo, hhi⟩
    rw [maskMatch_of_row hrow] at hbits
    obtain ⟨rfl, rfl⟩ := and_mask_eq_iff.mp hbits
    exact ⟨lo, hi, hrow, hlo, hhi⟩
  · rintro ⟨lo, hi, hrow, hlo, hhi⟩
    refine ⟨_, hrow, ?_, rfl, hlo, hhi⟩
    rw [maskMatch_of_row hrow]
    exact and_mask_eq_iff.mpr ⟨rfl, rfl⟩

/-! ### The event words (spec/30_encoding.md R41) -/

/-- The word spells the instruction at the event's interface level: a CTRL word is its `op` field alone. -/
inductive EventSpells : Event → Instr → Prop where
  | ctrl (f : Iface) (op : BitVec 2) : EventSpells ⟨f, op.setWidth 11⟩ (decodeOp op)
  | tick : EventSpells evTick .tick
  | edgeT (l : Level) : EventSpells (evEdgeT l) (.edge l none)
  | edgeA (l : Level) (t : Tau) : EventSpells (evEdge l t) (.edge l (some t))

theorem decodeEvent_of_eventSpells {e : Event} {i : Instr} (h : EventSpells e i) : decodeEvent e = .ok i := by
  cases h with
  | ctrl f op => cases f <;> revert op <;> decide
  | tick => exact decodeEvent_evTick
  | edgeT l => exact decodeEvent_evEdgeT l
  | edgeA l t => exact decodeEvent_evEdge l t

theorem toNat_topField (w : Word11) : (topField w).toNat = w.toNat / 512 := by
  simp only [topField, BitVec.extractLsb'_toNat, Nat.shiftRight_eq_div_pow]
  omega

/-- A CTRL word without padding is its `op` field. -/
theorem ctrlWord_of_fields {w : Word11} (hkind : topField w = 0#2) (hpadding : w.extractLsb' 2 7 = 0#7) :
    (w.extractLsb' 0 2).setWidth 11 = w := by
  have hk : w.toNat / 512 = 0 := by rw [← toNat_topField, hkind]; rfl
  have hp : w.toNat / 2 ^ 2 % 2 ^ 7 = 0 := by
    rw [← Nat.shiftRight_eq_div_pow, ← BitVec.extractLsb'_toNat, hpadding]; rfl
  apply BitVec.eq_of_toNat_eq
  simp only [BitVec.toNat_setWidth, BitVec.extractLsb'_toNat, Nat.shiftRight_zero]
  omega

/-- A TICK word without padding is the word of TICK. -/
theorem tickWord_of_fields {w : Word11} (hkind : topField w = 1#2) (hpadding : w.extractLsb' 0 9 = 0#9) :
    w = 0x200#11 := by
  have hk : w.toNat / 512 = 1 := by rw [← toNat_topField, hkind]; rfl
  have hp : w.toNat % 2 ^ 9 = 0 := by
    rw [← Nat.shiftRight_zero (n := w.toNat), ← BitVec.extractLsb'_toNat, hpadding]; rfl
  exact BitVec.eq_of_toNat_eq (by simp only [BitVec.toNat_ofNat]; omega)

/-- A word of kind 2 is the EDGE word of its level and `tau`. -/
theorem edgeWord_of_fields {w : Word11} (hkind : topField w = 2#2) : edgeWord (levelField w) (tauField w) = w := by
  have hfields := classifierWord_of_fields w
  rwa [hkind] at hfields

theorem eventSpells_of_decodeEvent {e : Event} {i : Instr} (h : decodeEvent e = .ok i) : EventSpells e i := by
  obtain ⟨f, w⟩ := e
  by_cases hedge : topField w = 2#2
  · have hword := edgeWord_of_fields hedge
    cases f with
    | levelT =>
      obtain ⟨htau, rfl⟩ : tauField w = 0#8 ∧ .edge (levelField w) none = i := by
        simpa [decodeEvent, hedge, ite_eq_iff] using h
      have hspells := EventSpells.edgeT (levelField w)
      rwa [evEdgeT, ← htau, hword] at hspells
    | levelA =>
      obtain rfl : .edge (levelField w) (some (tauField w)) = i := by simpa [decodeEvent, hedge] using h
      have hspells := EventSpells.edgeA (levelField w) (tauField w)
      rwa [evEdge, hword] at hspells
  · simp only [decodeEvent, if_neg hedge] at h
    split_ifs at h with hctrl hpadding htick hpadding
    · cases h
      have hspells := EventSpells.ctrl f (w.extractLsb' 0 2)
      rwa [ctrlWord_of_fields hctrl hpadding] at hspells
    · obtain rfl := tickWord_of_fields htick hpadding
      cases f <;> cases h
      exact .tick

/-- The words that spell an instruction are exactly the ones the decoder accepts. -/
theorem decodeEvent_eq_ok_iff {e : Event} {i : Instr} : decodeEvent e = .ok i ↔ EventSpells e i :=
  ⟨eventSpells_of_decodeEvent, decodeEvent_of_eventSpells⟩

/-! ### Decoding and encoding -/

/-- The word an operation is encoded as is one of the written events of spec/30_encoding.md R54. -/
theorem decode_encode_of_operation {i : Instr} (h : i.row? = none) : decode (encode i) = .ok i := by
  cases i with
  | init => exact decodeEvent_evInit
  | start => exact decodeEvent_evStart
  | stop => exact decodeEvent_evStop
  | read => exact decodeEvent_evRead
  | tick => exact decodeEvent_evTick
  | edge l o =>
    cases o with
    | none => exact decodeEvent_evEdgeT l
    | some t => exact decodeEvent_evEdge l t
  | _ => cases h

/-- The code of a row that holds its `tau` is the word of its triple, which that row alone holds. -/
theorem decode_encode_of_row {i : Instr} {r : Row} (hrow : i.row? = some r) (hholds : r.holdsTau = true) :
    decode (encode i) = .ok i := by
  obtain ⟨hlo, hhi⟩ := holdsTau_iff.mp hholds
  rw [encode_of_row hrow, decode, decodeClassifier_classifierWord, rowOf_eq_of_holds hrow hlo hhi]

/-- Settles O1: the operations by their words, the rows by the triple their word is made of. -/
theorem decodeOfEncodeIsIdentity : Obligations.DecodeOfEncodeIsIdentity := by
  intro i hwf
  cases hrow : i.row? with
  | none => exact decode_encode_of_operation hrow
  | some r => exact decode_encode_of_row hrow (by simpa [Instr.wellFormed, hrow] using hwf)

/-- The row a classifier word decodes to, by the word's fields. -/
theorem decodeClassifier_holds (cw : Word11) :
    ∃ lo hi, (decodeClassifier cw).row? = some ⟨phaseOfCode (topField cw), levelField cw, lo, hi, tauField cw⟩ ∧
      lo ≤ (tauField cw).toNat ∧ (tauField cw).toNat ≤ hi :=
  rowOf_holds _ _ _

theorem encode_decodeOp (op : BitVec 2) : encode (decodeOp op) = .event ⟨.levelT, op.setWidth 11⟩ := by
  revert op; decide

theorem decodeOp_ne_edge (op : BitVec 2) (l : Level) (o : Option Tau) : decodeOp op ≠ .edge l o := by
  unfold decodeOp
  split_ifs <;> exact nofun

/-- A Level T word and a Level A EDGE word that spell an instruction are its code. -/
theorem encode_of_eventSpells {e : Event} {i : Instr} (h : EventSpells e i)
    (hlevel : e.iface = .levelT ∨ ∃ l o, i = .edge l o) : encode i = .event e := by
  cases h with
  | ctrl f op =>
    rcases hlevel with rfl | ⟨l, o, hedge⟩
    · exact encode_decodeOp op
    · exact absurd hedge (decodeOp_ne_edge op l o)
  | tick => rfl
  | edgeT l => rfl
  | edgeA l t => rfl

/-- Settles O2: a classifier word is the word of its fields, which the row it decodes to carries; an event word that decodes is
one of those `EventSpells` lists. -/
theorem encodeOfDecodeIsIdentity : Obligations.EncodeOfDecodeIsIdentity := by
  refine ⟨fun cw => ?_, fun w i h => ?_, fun w l o h => ?_⟩
  · obtain ⟨lo, hi, hrow, hlo, hhi⟩ := decodeClassifier_holds cw
    refine ⟨(encode_of_row hrow).trans (congrArg _ (classifierWord_of_fields cw)), ?_⟩
    simpa only [Instr.wellFormed, hrow] using holdsTau_iff.mpr ⟨hlo, hhi⟩
  · exact encode_of_eventSpells (decodeEvent_eq_ok_iff.mp h) (.inl rfl)
  · exact encode_of_eventSpells (decodeEvent_eq_ok_iff.mp h) (.inr ⟨l, o, rfl⟩)

/-- Settles O3: the control words and the Level A EDGE words by their fields, the rest as written events. -/
theorem fixedEventWordsDecode : Obligations.FixedEventWordsDecode := by
  refine ⟨fun f => ⟨?_, ?_, ?_, ?_⟩, decodeEvent_evTick, decodeEvent_evEdgeT .low, decodeEvent_evEdgeT .high,
    fun t => ⟨?_, ?_⟩⟩
  · exact decodeEvent_of_eventSpells (.ctrl f 0#2)
  · exact decodeEvent_of_eventSpells (.ctrl f 1#2)
  · exact decodeEvent_of_eventSpells (.ctrl f 2#2)
  · exact decodeEvent_of_eventSpells (.ctrl f 3#2)
  · exact edgeWord_eq_add .low t ▸ decodeEvent_evEdge .low t
  · exact edgeWord_eq_add .high t ▸ decodeEvent_evEdge .high t

/-! ### Reserved words (spec/30_encoding.md R53) -/

/-- A step refuses the oldest pending word by the reason it spells no event. -/
theorem step_of_reject {s : State} {e : Event} {rest : List Event} {r : Reject} (hpending : s.inputs = e :: rest)
    (hreject : decodeEvent e = .error r) : step s = .refused (.noSuchEvent r) := by
  rw [← deliver_oldest_of_inputs_eq_cons hpending]
  exact stepEvent_of_reject hreject _

/-- Settles O5: the decoder rejects that word by that name. -/
theorem tickWordRefusedAtLevelA : Obligations.TickWordRefusedAtLevelA :=
  fun _ _ hpending => step_of_reject hpending rfl

/-- The words that spell an instruction are outside the four reserved classes. -/
theorem word_of_eventSpells {e : Event} {i : Instr} (h : EventSpells e i) :
    e.word.toNat ≤ 0x003 ∨ e.word.toNat = 0x200 ∨
      (0x400 ≤ e.word.toNat ∧ e.word.toNat ≤ 0x5FF ∧ (e.iface = .levelT → e.word.toNat % 256 = 0)) := by
  cases h with
  | ctrl f op =>
    have hop := op.isLt
    have hword : (⟨f, op.setWidth 11⟩ : Event).word.toNat = op.toNat % 2 ^ 11 := BitVec.toNat_setWidth ..
    exact .inl (by omega)
  | tick => exact .inr (.inl rfl)
  | edgeT l => cases l <;> exact .inr (.inr (by decide))
  | edgeA l t =>
    have hword : (evEdge l t).word.toNat = 0x400 + 256 * (levelCode l).toNat + t.toNat := edgeWord_toNat l t
    have hlevel := (levelCode l).isLt
    have htau := t.isLt
    exact .inr (.inr ⟨by omega, by omega, nofun⟩)

/-- Settles O4: a word of a reserved class spells nothing (`word_of_eventSpells`), and the row a classifier word decodes to has the
symbol the classifier gives. -/
theorem reservedEventWordsRefused : Obligations.ReservedEventWordsRefused := by
  refine ⟨fun s e rest hpending hreserved => ?_, fun w hw => ?_, fun cw => ?_⟩
  · cases hdecode : decodeEvent e with
    | error r => exact ⟨r, step_of_reject hpending hdecode⟩
    | ok i =>
      have hword := word_of_eventSpells (decodeEvent_eq_ok_iff.mp hdecode)
      rcases hreserved with hkind | hctrl | htick | ⟨hlevelT, hedge, htau⟩
      · omega
      · omega
      · omega
      · simp only [hlevelT, forall_const] at hword
        omega
  · have hfixed : ∀ n ∈ [0x000, 0x001, 0x002, 0x003, 0x200, 0x400, 0x500],
        ∃ i, decodeEvent ⟨.levelT, BitVec.ofNat 11 n⟩ = .ok i := by
      simp only [List.forall_mem_cons]
      exact ⟨⟨_, decodeEvent_evInit⟩, ⟨_, decodeEvent_evStart⟩, ⟨_, decodeEvent_evStop⟩, ⟨_, decodeEvent_evRead⟩,
        ⟨_, decodeEvent_evTick⟩, ⟨_, decodeEvent_evEdgeT .low⟩, ⟨_, decodeEvent_evEdgeT .high⟩, nofun⟩
    simpa only [BitVec.ofNat_toNat, BitVec.setWidth_eq] using hfixed w.toNat hw
  · exact ⟨_, rfl, by rw [decodeClassifier, symbol?_rowOf]; rfl⟩

/-! ### Edges and placed numbers run a row (spec/30_encoding.md R55) -/

/-- A row runs the action of its symbol where the block is armed in the row's phase and the `tau` is in the row's range. -/
theorem exec_of_row {i : Instr} {y : Symbol} {p : Phase} {l : Level} {lo hi : Nat} {t : Tau} {s : State}
    (hrow : i.row? = some ⟨p, l, lo, hi, t⟩) (hsymbol : i.symbol? = some y) (harmed : s.armed = true)
    (hphase : s.phase = p) (hlo : lo ≤ t.toNat) (hhi : t.toNat ≤ hi) : exec i s = symbolAction y s := by
  have hselected : rowSelected i s = true :=
    rowSelected_iff.mpr ⟨_, hrow, harmed, hphase, holdsTau_iff.mpr ⟨hlo, hhi⟩⟩
  rw [exec_row hsymbol, if_pos hselected]

/-- The row given for the phase the block is in runs the action of the classifier's symbol. -/
theorem exec_rowOf {s : State} (harmed : s.armed = true) (l : Level) (t : Tau) :
    exec (rowOf s.phase l t) s = symbolAction (classify s.phase l t) s := by
  obtain ⟨lo, hi, hrow, hlo, hhi⟩ := rowOf_holds s.phase l t
  exact exec_of_row hrow (symbol?_rowOf s.phase l t) harmed rfl hlo hhi

theorem exec_edge_of_armed {s : State} (harmed : s.armed = true) (l : Level) (o : Option Tau) :
    exec (.edge l o) s = symbolAction (classify s.phase l (edgeTau o s)) s.captureAndReset := by
  simp [exec, execEdge, takeEdgeInterrupt, returnFromEdge, harmed]

/-- Settles O11: the row given for the phase on entry, the level and the `tau` is selected, and its symbol is the classifier's. -/
theorem observedEdgeAppliesItsRow : Obligations.ObservedEdgeAppliesItsRow := by
  intro s l o harmed
  rw [decodeClassifier_classifierWord, exec_edge_of_armed harmed]
  exact (exec_rowOf (s := s.captureAndReset) harmed l (edgeTau o s)).symm

/-- The step after a classifier word was placed runs the row it decodes to, after capture and reset. -/
theorem step_deliverClassifier (s : State) (cw : Word11) :
    step (s.deliverClassifier cw) = exec (decodeClassifier cw)
      { s with configured := true, armed := true, phase := phaseOfCode (topField cw), tcnt := 0#8, ovf := false } := by
  have hrun := observedEdgeAppliesItsRow
    { s with configured := true, armed := true, phase := phaseOfCode (topField cw) } (levelField cw)
    (some (tauField cw)) rfl
  rw [edgeTau, classifierWord_of_fields] at hrun
  exact (stepEvent_of_decode (decodeEvent_evEdge _ _) _).trans hrun

/-- A number is read as a Level T event or as a classifier word. -/
theorem codeOfNumber_cases (w : Word11) : codeOfNumber w = .event ⟨.levelT, w⟩ ∨ codeOfNumber w = .classifier w := by
  unfold codeOfNumber
  cases decodeEvent ⟨.levelT, w⟩ with
  | ok i => exact .inl rfl
  | error r => exact .inr rfl

theorem row?_of_eventSpells {e : Event} {i : Instr} (h : EventSpells e i) : i.row? = none := by
  cases h with
  | ctrl f op => revert op; decide
  | _ => rfl

theorem decodeTableWord_eq_some {nbits w : Nat} {i : Instr} (h : decodeTableWord nbits w = some i) :
    w < 2048 ∧ decode (codeOfNumber (BitVec.ofNat 11 w)) = .ok i := by
  unfold decodeTableWord at h
  split_ifs at h with hw
  refine ⟨hw, ?_⟩
  split at h <;> simp_all

/-- Settles O12: a number that is read as an event spells an operation, and one that is read as a classifier word is the word the
placed edge forms. -/
theorem placedNumberIsRunNext : Obligations.PlacedNumberIsRunNext := by
  intro s nbits w i h
  obtain ⟨hw, hdecode⟩ := decodeTableWord_eq_some h
  have hplaced : s.withFetchWord nbits w = s.deliverCode (codeOfNumber (BitVec.ofNat 11 w)) := if_pos hw
  rw [hplaced]
  rcases codeOfNumber_cases (BitVec.ofNat 11 w) with hcode | hcode <;> rw [hcode] at hdecode ⊢
  · have hoperation := row?_of_eventSpells (decodeEvent_eq_ok_iff.mp hdecode)
    exact ⟨fun _ => stepEvent_of_decode hdecode s, fun r hrow => by simp [hoperation] at hrow⟩
  · cases hdecode
    obtain ⟨lo, hi, hdecoded, -, -⟩ := decodeClassifier_holds (BitVec.ofNat 11 w)
    refine ⟨fun hoperation => by simp [hoperation] at hdecoded, fun r hrow => ?_⟩
    cases hdecoded.symm.trans hrow
    exact step_deliverClassifier s _

/-! ### The no-match rows (spec/30_encoding.md R48) -/

theorem phaseCode_toNat_inj {p q : Phase} : (phaseCode p).toNat = (phaseCode q).toNat ↔ p = q := by
  cases p <;> cases q <;> decide

theorem levelCode_toNat_inj {l m : Level} : (levelCode l).toNat = (levelCode m).toNat ↔ l = m := by
  cases l <;> cases m <;> decide

/-- The words of a row are one range: its phase and level give the 256 words of a block, its bounds a part of that block. -/
theorem codedAs_of_row {row : Tau → Instr} {p : Phase} {l : Level} {lo hi cwLo cwHi : Nat}
    (hrow : ∀ t, (row t).row? = some ⟨p, l, lo, hi, t⟩) (hmax : hi ≤ 255)
    (hcwLo : cwLo = 512 * (phaseCode p).toNat + 256 * (levelCode l).toNat + lo)
    (hcwHi : cwHi = 512 * (phaseCode p).toNat + 256 * (levelCode l).toNat + hi) : CodedAs cwLo cwHi row := by
  intro cw
  have hword := classifierWord_toNat (phaseOfCode (topField cw)) (levelField cw) (tauField cw)
  rw [classifierWord_of_fields] at hword
  rw [decodeClassifier, rowOf_eq_iff, hrow]
  simp only [Option.some.injEq, Row.mk.injEq, ← phaseCode_toNat_inj, ← levelCode_toNat_inj]
  have htau := (tauField cw).isLt
  have hlevelRow := (levelCode l).isLt
  have hlevelWord := (levelCode (levelField cw)).isLt
  constructor
  · rintro ⟨hge, hle⟩
    exact ⟨lo, hi, ⟨by omega, by omega, rfl, rfl, trivial⟩, by omega, by omega⟩
  · rintro ⟨_, _, ⟨hp, hl, rfl, rfl, -⟩, hlo, hhi⟩
    omega

/-- A row that stands for X writes `phase` alone (spec/42_edge_handler.md R89). -/
theorem exec_noMatch {i : Instr} {p : Phase} {l : Level} {lo hi : Nat} {t : Tau} {s : State}
    (hrow : i.row? = some ⟨p, l, lo, hi, t⟩) (hsymbol : i.symbol? = some .x) (harmed : s.armed = true)
    (hphase : s.phase = p) (hlo : lo ≤ t.toNat) (hhi : t.toNat ≤ hi) : exec i s = .next { s with phase := .ap } :=
  exec_of_row hrow hsymbol harmed hphase hlo hhi

/-- Settles O33: each row is one use of `exec_noMatch` and one of `codedAs_of_row`; a row without a bound on one side has the
bound 0 or 255 there. -/
theorem noMatchRowsResync : Obligations.NoMatchRowsResync := by
  refine ⟨fun s t harmed => ?_, ?_⟩
  · have hmin : 0 ≤ t.toNat := Nat.zero_le _
    have hmax : t.toNat ≤ 255 := Nat.le_of_lt_succ t.isLt
    refine ⟨fun hphase => ⟨?_, ?_, ?_⟩, fun hphase => ⟨?_, ?_, ?_, ?_⟩, fun hphase => ⟨?_, ?_, ?_, ?_⟩, fun hphase => ?_⟩
    · exact exec_noMatch rfl rfl harmed hphase hmin hmax
    · exact exec_noMatch rfl rfl harmed hphase hmin
    · exact (exec_noMatch rfl rfl harmed hphase · hmax)
    · exact exec_noMatch rfl rfl harmed hphase hmin
    · exact exec_noMatch rfl rfl harmed hphase
    · exact (exec_noMatch rfl rfl harmed hphase · hmax)
    · exact exec_noMatch rfl rfl harmed hphase hmin hmax
    · exact exec_noMatch rfl rfl harmed hphase hmin
    · exact exec_noMatch rfl rfl harmed hphase
    · exact (exec_noMatch rfl rfl harmed hphase · hmax)
    · exact exec_noMatch rfl rfl harmed hphase hmin hmax
    · exact exec_noMatch rfl rfl harmed hphase hmin hmax
  · refine ⟨?_, ?_, ?_, ?_, ?_, ?_, ?_, ?_, ?_, ?_, ?_, ?_⟩ <;> exact codedAs_of_row (fun _ => rfl) (by decide) rfl rfl

end Sys2Proof.Machine
end

section
/-! PROOFS. The statements of spec/40_timer.md: what a TICK does, what moves the timer, what `tau` counts, and Level A. -/

namespace Sys2Proof.Machine

/-! ### One tick (spec/40_timer.md R60, R61) -/

theorem exec_tick_of_configured {s : State} (h : s.configured = true) : exec .tick s = .next s.countTick := by
  simp [exec, execTick, h]

theorem exec_tick_of_unconfigured {s : State} (h : s.configured = false) : exec .tick s = .next s.drawTimer := by
  simp [exec, execTick, h]

/-- Settles O20: the counter's sum carries into `ovf` only from 255. -/
theorem tickCounts : Obligations.TickCounts := by
  intro s hconfigured
  rw [exec_tick_of_configured hconfigured, countTick_eq]
  refine ⟨fun hbelow => ⟨s.tcnt + 1#8, ?_, ?_⟩, fun hwrap => ?_⟩
  · rw [BitVec.toNat_add, BitVec.toNat_ofNat]
    omega
  · have hne : s.tcnt ≠ 255#8 := fun h => hbelow.ne (congrArg BitVec.toNat h)
    rw [ovfAfterTick, if_neg hne]
  · have hmax : s.tcnt = 255#8 := BitVec.eq_of_toNat_eq hwrap
    rw [hmax]
    rfl

/-- Settles O21: the values drawn are the witnesses, whatever they are. -/
theorem tickBeforeInitIsFree : Obligations.TickBeforeInitIsFree :=
  fun _ h => ⟨_, _, _, exec_tick_of_unconfigured h⟩

/-! ### What moves the timer (spec/40_timer.md R64) -/

/-- No action of the handler writes the timer. -/
theorem symbolAction_timer {y : Symbol} {s t : State} (h : symbolAction y s = .next t) :
    t.tcnt = s.tcnt ∧ t.ovf = s.ovf := by
  rcases symbolAction_next h with
    ⟨-, rfl⟩ | ⟨-, rfl⟩ | ⟨-, rfl⟩ | ⟨_, -, -, rfl⟩ | ⟨-, rfl⟩ | ⟨-, rfl⟩ <;> exact ⟨rfl, rfl⟩

/-- READ's answer is written to the consumer's cells alone. -/
theorem answerRead_timer (s : State) : s.answerRead.tcnt = s.tcnt ∧ s.answerRead.ovf = s.ovf := by
  simp [answerRead_eq]

/-- Settles O24: an observed edge clears the timer before the action of its symbol, which leaves it alone, as every other
instruction but TICK does. -/
theorem onlyTickAndObservedEdgeMoveTimer : Obligations.OnlyTickAndObservedEdgeMoveTimer := by
  intro i s t h hmoved
  rcases exec_next h with ⟨-, -, rfl⟩ | ⟨-, -, rfl⟩ | ⟨-, -, rfl⟩ | ⟨-, -, rfl⟩ | ⟨htick, -, -⟩ |
    ⟨htick, -, -⟩ | ⟨_, _, -, -, rfl⟩ | ⟨l, o, hedge, harmed, haction⟩ | ⟨y, -, -, haction⟩
  · exact absurd ⟨rfl, rfl⟩ hmoved
  · exact absurd ⟨rfl, rfl⟩ hmoved
  · exact absurd ⟨rfl, rfl⟩ hmoved
  · exact absurd (answerRead_timer s) hmoved
  · exact .inl htick
  · exact .inl htick
  · exact absurd ⟨rfl, rfl⟩ hmoved
  · obtain ⟨htcnt, hovf⟩ := symbolAction_timer haction
    exact .inr ⟨l, o, hedge, harmed, htcnt, hovf⟩
  · exact absurd (symbolAction_timer haction) hmoved

/-! ### What `tau` counts (spec/40_timer.md R63) -/

theorem stepEvent_evTick {s : State} (h : s.configured = true) : stepEvent evTick s = .next s.countTick :=
  (stepEvent_of_decode decodeEvent_evTick s).trans (exec_tick_of_configured h)

/-- From any counter value, `n` ticks of a configured block add `n` modulo 256 and move only the timer. -/
theorem runEvents_evTicks {s : State} (h : s.configured = true) (n : Nat) :
    ∃ o, runEvents (evTicks n) s = .next (s.setTimer (s.tcnt + BitVec.ofNat 8 n) o) := by
  induction n generalizing s with
  | zero => exact ⟨s.ovf, by simp [evTicks, State.setTimer]⟩
  | succ n ih =>
    obtain ⟨o, hrun⟩ := ih (s := s.countTick) h
    have hsum : s.countTick.tcnt + BitVec.ofNat 8 n = s.tcnt + BitVec.ofNat 8 (n + 1) := by
      rw [countTick_eq, BitVec.add_assoc, ← BitVec.ofNat_add, Nat.add_comm]
    rw [hsum] at hrun
    exact ⟨o, (runEvents_cons_next (stepEvent_evTick h)).trans hrun⟩

/-- An observed Level T edge does what the Level A edge that carries its `tau` does, in any state that differs from this one
in the timer alone: the timer is read as `tau` and then cleared. -/
theorem stepEvent_evEdgeT_setTimer {s : State} (harmed : s.armed = true) (l : Level) (t : Tau) (o : Bool) :
    stepEvent (evEdgeT l) (s.setTimer t o) = stepEvent (evEdge l t) s := by
  have hobserved : (s.setTimer t o).armed = true := harmed
  rw [stepEvent_of_decode (decodeEvent_evEdgeT l), exec_edge_of_armed hobserved, stepEvent_edge_armed l t s harmed]
  rfl

/-- A run of one event is its step. -/
@[simp] theorem runEvents_singleton (e : Event) (s : State) : runEvents [e] s = stepEvent e s := by
  rw [runEvents]
  cases stepEvent e s <;> rfl

/-- Settles O22: the ticks count from 0 to `n` modulo 256, which the Level T edge then reads. -/
theorem tauIsTicksModulo256 : Obligations.TauIsTicksModulo256 := by
  intro s n l hconfigured hcleared
  obtain ⟨o, hticks⟩ := runEvents_evTicks hconfigured n
  rw [hcleared, BitVec.zero_add] at hticks
  refine ⟨⟨o, hticks⟩, fun harmed => ?_⟩
  have htau : BitVec.ofNat 8 (n % 256) = BitVec.ofNat 8 n := BitVec.eq_of_toNat_eq (by simp)
  rw [runEvents_append_next hticks, runEvents_singleton, runEvents_singleton, htau]
  exact stepEvent_evEdgeT_setTimer harmed l _ o

/-! ### Level A (spec/40_timer.md R65): one instruction -/

/-- States with one Level A view differ at most in the timer, the events to come and the draws. -/
theorem exists_eq_of_levelA_eq {s u : State} (h : u.levelA = s.levelA) :
    ∃ c o es n, u = { s with tcnt := c, ovf := o, inputs := es, draws := n } := by
  cases s
  cases u
  cases h
  exact ⟨_, _, _, _, rfl⟩

section
variable {s u : State} (h : u.levelA = s.levelA)
include h

theorem answerRead_levelA : u.answerRead.levelA = s.answerRead.levelA := by
  obtain ⟨c, o, es, n, rfl⟩ := exists_eq_of_levelA_eq h
  rw [answerRead_eq, answerRead_eq]
  rfl

/-- The action of a symbol reads nothing outside the Level A view. -/
theorem symbolAction_levelA (y : Symbol) :
    mapNext State.levelA (symbolAction y u) = mapNext State.levelA (symbolAction y s) := by
  obtain ⟨c, o, es, n, rfl⟩ := exists_eq_of_levelA_eq h
  cases y with
  | b0 | b1 => exact mapNext_ite_congr rfl rfl
  | _ => rfl

/-- The consumer's operations read nothing outside the Level A view. -/
theorem exec_consumer_levelA {i : Instr} (hagent : i.agent = .consumer) :
    mapNext State.levelA (exec i u) = mapNext State.levelA (exec i s) := by
  obtain ⟨c, o, es, n, rfl⟩ := exists_eq_of_levelA_eq h
  cases i with
  | init | start | stop => exact mapNext_ite_congr rfl rfl
  | read => exact mapNext_ite_congr (congrArg Host.Outcome.next (answerRead_levelA h)) rfl
  | _ => cases hagent

/-- An edge and the edge that carries the `tau` it would have read do the same to the Level A view. -/
theorem exec_edge_levelA (l : Level) (o : Option Tau) :
    mapNext State.levelA (exec (.edge l (some (edgeTau o s))) u) = mapNext State.levelA (exec (.edge l o) s) := by
  have hhandled := symbolAction_levelA (s := s.captureAndReset) (u := u.captureAndReset) h
  obtain ⟨c, ovf, es, n, rfl⟩ := exists_eq_of_levelA_eq h
  exact mapNext_ite_congr (hhandled _) rfl

end

/-- A tick moves nothing in the Level A view. -/
theorem exec_tick_levelA (s : State) : mapNext State.levelA (exec .tick s) = .next s.levelA := by
  cases h : s.configured with
  | true => rw [exec_tick_of_configured h]; rfl
  | false => rw [exec_tick_of_unconfigured h]; rfl

/-! ### Level A: one event -/

theorem agent_decodeOp (op : BitVec 2) : (decodeOp op).agent = .consumer := by
  revert op; decide

/-- A control word is the same word at Level A. -/
theorem abstractEvent_of_consumer {e : Event} {i : Instr} (hdecode : decodeEvent e = .ok i) (hagent : i.agent = .consumer)
    (s : State) : abstractEvent e s = [⟨.levelA, e.word⟩] := by
  rw [abstractEvent, hdecode]
  cases i with
  | init | start | stop | read => rfl
  | _ => cases hagent

theorem abstractEvent_of_edge {e : Event} {l : Level} {o : Option Tau} (hdecode : decodeEvent e = .ok (.edge l o))
    (s : State) : abstractEvent e s = [evEdge l (edgeTau o s)] := by
  rw [abstractEvent, hdecode]

theorem abstractEvent_evTick (s : State) : abstractEvent evTick s = [] := rfl

theorem abstractEvent_of_reject {e : Event} {r : Reject} (hdecode : decodeEvent e = .error r) (s : State) :
    abstractEvent e s = [e] := by
  rw [abstractEvent, hdecode]

/-- The Level A events that stand for an edge do to the Level A view what the edge does. -/
theorem runEvents_abstractEvent_of_edge {e : Event} {l : Level} {o : Option Tau}
    (hdecode : decodeEvent e = .ok (.edge l o)) {s u : State} (h : u.levelA = s.levelA) :
    mapNext State.levelA (runEvents (abstractEvent e s) u) = mapNext State.levelA (stepEvent e s) := by
  rw [abstractEvent_of_edge hdecode, runEvents_singleton, stepEvent_of_decode (decodeEvent_evEdge _ _),
    stepEvent_of_decode hdecode]
  exact exec_edge_levelA h l o

/-- The Level A events that stand for an event, none for TICK, do to the Level A view what the event does. -/
theorem runEvents_abstractEvent {s u : State} (h : u.levelA = s.levelA) (e : Event) :
    mapNext State.levelA (runEvents (abstractEvent e s) u) = mapNext State.levelA (stepEvent e s) := by
  cases hdecode : decodeEvent e with
  | error r =>
    rw [abstractEvent_of_reject hdecode, runEvents_singleton, stepEvent_of_reject hdecode, stepEvent_of_reject hdecode]
  | ok i =>
    cases decodeEvent_eq_ok_iff.mp hdecode with
    | ctrl f op =>
      have hlevelA : decodeEvent ⟨.levelA, op.setWidth 11⟩ = .ok (decodeOp op) := decodeEvent_of_eventSpells (.ctrl _ op)
      rw [abstractEvent_of_consumer hdecode (agent_decodeOp op), runEvents_singleton, stepEvent_of_decode hlevelA,
        stepEvent_of_decode hdecode]
      exact exec_consumer_levelA h (agent_decodeOp op)
    | tick =>
      rw [abstractEvent_evTick, runEvents_nil, stepEvent_of_decode hdecode, exec_tick_levelA, ← h, mapNext]
    | edgeT l => exact runEvents_abstractEvent_of_edge hdecode h
    | edgeA l t => exact runEvents_abstractEvent_of_edge hdecode h

/-! ### Level A: a run -/

section
variable {α : Type} {f : State → α} {r : Result}

theorem mapNext_eq_next {a : α} : mapNext f r = .next a ↔ ∃ s, r = .next s ∧ f s = a := by
  cases r <;> simp [mapNext]

theorem mapNext_eq_fault {x : Fault} : mapNext f r = .fault x ↔ r = .fault x := by
  cases r <;> simp [mapNext]

theorem mapNext_eq_refused {x : Refusal} : mapNext f r = .refused x ↔ r = .refused x := by
  cases r <;> simp [mapNext]

end

/-- A run that stops does not reach the events after it. -/
theorem runEvents_append_of_stop {es fs : List Event} {s : State} (h : ∀ t, runEvents es s ≠ .next t) :
    runEvents (es ++ fs) s = runEvents es s := by
  induction es generalizing s with
  | nil => exact absurd rfl (h s)
  | cons e es ih =>
    simp only [runEvents, List.cons_append] at h ⊢
    cases hstep : stepEvent e s with
    | next t => exact ih (by simpa only [hstep] using h)
    | fault x => rfl
    | refused x => rfl

theorem afterEvent_of_next {e : Event} {s t : State} (h : stepEvent e s = .next t) : afterEvent e s = t := by
  rw [afterEvent, h]

/-- From any state with the Level A view of `s`, the Level A trace of a run from `s` does to that view what the run does: after
each event the two states have one view again, or both runs have ended in the same stop. -/
theorem runEvents_abstractTrace (es : List Event) {s u : State} (h : u.levelA = s.levelA) :
    mapNext State.levelA (runEvents (abstractTrace es s) u) = mapNext State.levelA (runEvents es s) := by
  induction es generalizing s u with
  | nil => exact congrArg Host.Outcome.next h
  | cons e es ih =>
    have hevent := runEvents_abstractEvent h e
    rw [abstractTrace]
    cases hstep : stepEvent e s with
    | next t =>
      rw [hstep] at hevent
      obtain ⟨u', hrun, hview⟩ := mapNext_eq_next.mp hevent
      rw [runEvents_append_next hrun, runEvents_cons_next hstep, afterEvent_of_next hstep]
      exact ih hview
    | fault x =>
      rw [hstep] at hevent
      have hrun := mapNext_eq_fault.mp hevent
      rw [runEvents_append_of_stop (by simp [hrun]), hrun, runEvents_cons_fault hstep]
    | refused x =>
      rw [hstep] at hevent
      have hrun := mapNext_eq_refused.mp hevent
      rw [runEvents_append_of_stop (by simp [hrun]), hrun, runEvents_cons_refused hstep]

/-- Settles O51, where the two runs start in one state. A Level A event stands for itself, so the premise that all events are of
Level T is not used. -/
theorem levelAStandsForLevelT : Obligations.LevelAStandsForLevelT :=
  fun es _ _ => runEvents_abstractTrace es rfl

end Sys2Proof.Machine
end

section
/-! PROOFS. The statements of spec/41_control_surface.md: INIT, START, STOP and READ, before and after INIT. -/

namespace Sys2Proof.Machine

/-! ### The control operations, before and after INIT -/

section
variable {s : State}

section
variable (h : s.configured = true)
include h

theorem exec_start_of_configured : exec .start s = .next s.beginCapture := if_pos h

theorem exec_stop_of_configured : exec .stop s = .next (s.setArmed false) := if_pos h

theorem exec_read_of_configured : exec .read s = .next s.answerRead := if_pos h

theorem stepEvent_evStart : stepEvent evStart s = .next s.beginCapture :=
  (stepEvent_of_decode decodeEvent_evStart s).trans (exec_start_of_configured h)

theorem stepEvent_evStop : stepEvent evStop s = .next (s.setArmed false) :=
  (stepEvent_of_decode decodeEvent_evStop s).trans (exec_stop_of_configured h)

end

section
variable (h : s.configured = false)
include h

theorem exec_start_of_unconfigured : exec .start s = .refused .beforeInit := if_neg (ne_true_of_eq_false h)

theorem exec_stop_of_unconfigured : exec .stop s = .refused .beforeInit := if_neg (ne_true_of_eq_false h)

theorem exec_read_of_unconfigured : exec .read s = .refused .beforeInit := if_neg (ne_true_of_eq_false h)

end

/-! ### Edges while disarmed -/

/-- A disarmed block does not observe an edge, at either level (spec/42_edge_handler.md R80). -/
theorem exec_edge_of_disarmed (h : s.armed = false) (l : Level) (o : Option Tau) : exec (.edge l o) s = .next s :=
  if_neg (ne_true_of_eq_false h)

/-- Any number of edges leaves a disarmed block as it is. -/
theorem runEvents_edges_of_disarmed (h : s.armed = false) {es : List Event}
    (hedges : ∀ e ∈ es, ∃ l o, decodeEvent e = .ok (.edge l o)) : runEvents es s = .next s := by
  induction es with
  | nil => rfl
  | cons e es ih =>
    obtain ⟨⟨l, o, hdecode⟩, hrest⟩ := List.forall_mem_cons.mp hedges
    have hstep : stepEvent e s = .next s := (stepEvent_of_decode hdecode s).trans (exec_edge_of_disarmed h l o)
    exact (runEvents_cons_next hstep).trans (ih hrest)

end

/-! ### STOP -/

/-- READ neither reads nor writes `armed`. -/
theorem answerRead_setArmed (s : State) (b : Bool) : (s.setArmed b).answerRead = s.answerRead.setArmed b := by
  simp only [answerRead_eq]
  rfl

/-- STOP takes pending-stop to the final sub-state: it leaves `phase` alone (spec/10_state.md R16). -/
theorem final_setArmed_false {s : State} (h : s.pendingStop = true) : (s.setArmed false).final = true := by
  obtain ⟨hphase, -⟩ := Bool.and_eq_true_iff.mp h
  exact Bool.and_eq_true_iff.mpr ⟨hphase, rfl⟩

theorem stop_read_commute {s : State} (h : s.configured = true) :
    runEvents [evStop, evRead] s = runEvents [evRead, evStop] s := by
  have hread : s.answerRead.configured = true := (sameRegisters_answerRead s).configured.trans h
  calc runEvents [evStop, evRead] s
      = runEvents [evRead] (s.setArmed false) := runEvents_cons_next (stepEvent_evStop h)
    _ = .next (s.setArmed false).answerRead := (runEvents_singleton _ _).trans (stepEvent_evRead h)
    _ = .next (s.answerRead.setArmed false) := by rw [answerRead_setArmed]
    _ = runEvents [evStop] s.answerRead := ((runEvents_singleton _ _).trans (stepEvent_evStop hread)).symm
    _ = runEvents [evRead, evStop] s := (runEvents_cons_next (stepEvent_evRead h)).symm

/-- Settles O15: STOP leaves the block disarmed, where edges are unobserved; and neither READ nor the sub-state's phase depends
on `armed`. -/
theorem stopOnlyDisarms : Obligations.StopOnlyDisarms := by
  intro s
  refine ⟨exec_stop_of_unconfigured, fun h =>
    ⟨exec_stop_of_configured h, final_setArmed_false, stop_read_commute h, fun es => ?_⟩⟩
  refine (runEvents_cons_next (stepEvent_evStop h)).trans (runEvents_edges_of_disarmed rfl (List.forall_mem_map.mpr ?_))
  rintro ⟨l, o⟩ -
  cases o with
  | none => exact ⟨l, none, decodeEvent_evEdgeT l⟩
  | some t => exact ⟨l, some t, decodeEvent_evEdge l t⟩

/-! ### INIT, START and READ -/

/-- Settles O13: INIT's one condition is `configured`. -/
theorem initConfiguresOnce : Obligations.InitConfiguresOnce := by
  intro s
  exact ⟨fun h => if_neg (ne_true_of_eq_false h), fun h => if_pos h⟩

/-- Settles O14: the four values START writes do not depend on the state, so a second START writes them again. -/
theorem startBeginsACapture : Obligations.StartBeginsACapture := by
  intro s
  refine ⟨exec_start_of_unconfigured, fun h => ⟨exec_start_of_configured h, ?_⟩⟩
  have hconfigured : s.beginCapture.configured = true := h
  have hidempotent : s.beginCapture.beginCapture = s.beginCapture := rfl
  rw [runEvents_cons_next (stepEvent_evStart h), runEvents_singleton, runEvents_singleton, stepEvent_evStart hconfigured,
    stepEvent_evStart h, hidempotent]

/-- Settles O16: READ's answer by the test on `phase`. -/
theorem readAnswersByPhase : Obligations.ReadAnswersByPhase := by
  intro s
  refine ⟨exec_read_of_unconfigured, fun h => ⟨fun hcomplete => ?_, fun hother => ?_⟩⟩
  · rw [exec_read_of_configured h, answerRead_of_readable s hcomplete]
  · rw [exec_read_of_configured h, answerRead_of_not_readable s hother]

/-- Settles O18: a power-on state is unconfigured, and disarmed besides. -/
theorem controlBeforeInitRefused : Obligations.ControlBeforeInitRefused := by
  rintro s ⟨hunconfigured, hdisarmed⟩
  exact ⟨exec_start_of_unconfigured hunconfigured, exec_stop_of_unconfigured hunconfigured,
    exec_read_of_unconfigured hunconfigured, exec_edge_of_disarmed hdisarmed⟩

/-- Settles O43: by `inv_beginCapture`, which asks nothing of `acc` and `rem`. -/
theorem startEstablishesInvariant : Obligations.StartEstablishesInvariant :=
  fun _ h => ⟨_, exec_start_of_configured h, inv_beginCapture h⟩

end Sys2Proof.Machine
end

section
/-! PROOFS. The statements of spec/42_edge_handler.md: the transition table, the rows one by one, and what a list of edges
does to a capture. -/

namespace Sys2Proof.Machine

/-! ### Edges (spec/42_edge_handler.md R80, R81) -/

/-- Settles O26: it is the handler's gate. -/
theorem unobservedEdgeChangesNothing : Obligations.UnobservedEdgeChangesNothing :=
  fun _ l o hdisarmed => exec_edge_of_disarmed hdisarmed l o

/-- X is what the classifier answers where none of its six rows does (spec/30_encoding.md R46). -/
theorem classify_eq_x {p : Phase} {l : Level} {t : Tau} : classify p l t = .x ↔
    ¬(p = .ap ∧ l = .high ∧ 121 ≤ t.toNat ∧ t.toNat ≤ 159) ∧
    ¬(p = .ag ∧ l = .low ∧ 61 ≤ t.toNat ∧ t.toNat ≤ 79) ∧
    ¬(p = .ag ∧ l = .low ∧ 31 ≤ t.toNat ∧ t.toNat ≤ 39) ∧
    ¬(p = .rb ∧ l = .low ∧ 6 ≤ t.toNat ∧ t.toNat ≤ 9) ∧
    ¬(p = .rb ∧ l = .low ∧ 21 ≤ t.toNat ∧ t.toNat ≤ 29) ∧
    ¬(p = .cp ∧ l = .high) := by
  obtain ⟨-, -, -, -, -, -, hx⟩ := classifierTable p l t
  exact hx

section
variable {s : State} {l : Level} {y : Symbol} (harmed : s.armed = true)
include harmed

/-- An observed edge of a known symbol, at either level. -/
theorem exec_edge_of_classify {o : Option Tau} (hsymbol : classify s.phase l (edgeTau o s) = y) :
    exec (.edge l o) s = symbolAction y s.captureAndReset := by
  rw [exec_edge_of_armed harmed, hsymbol]

/-- A delivered Level A edge of a known symbol. -/
theorem stepEvent_edge_of_classify {t : Tau} (hsymbol : classify s.phase l t = y) :
    stepEvent (evEdge l t) s = symbolAction y s.captureAndReset := by
  rw [stepEvent_edge_armed l t s harmed, hsymbol]

end

/-! ### Consume-bit (spec/42_edge_handler.md R85 to R87) -/

/-- The symbol of a low-level edge in RB whose interval lies in the window of the bit `b`. -/
theorem classify_of_bitWindow {b : Bool} {t : Tau} (h : (if b then inOneWindow t else inZeroWindow t) = true) :
    classify .rb .low t = if b then .b1 else .b0 := by
  cases b with
  | false => exact classify_eq_b0.mpr ⟨rfl, rfl, inZeroWindow_iff.mp h⟩
  | true => exact classify_eq_b1.mpr ⟨rfl, rfl, inOneWindow_iff.mp h⟩

/-- Where the interval lies in either window, which of the two it is tells the bit. -/
theorem bitWindow_of_range {t : Tau} (h : (6 ≤ t.toNat ∧ t.toNat ≤ 9) ∨ (21 ≤ t.toNat ∧ t.toNat ≤ 29)) :
    (if decide (21 ≤ t.toNat) then inOneWindow t else inZeroWindow t) = true := by
  rcases h with hzero | ⟨hlo, hhi⟩
  · have hbelow : ¬21 ≤ t.toNat := by omega
    simpa [hbelow] using hzero
  · simpa [hlo] using hhi

theorem symbolAction_bit (b : Bool) (s : State) : symbolAction (if b then .b1 else .b0) s = consumeBit b s := by
  cases b <;> rfl

theorem consumeBit_of_rem_zero {s : State} (h : s.rem.toNat = 0) (b : Bool) :
    consumeBit b s = .fault .bitCounterUnderflow :=
  if_pos (BitVec.eq_of_toNat_eq h)

/-- With a bit to receive, consume-bit assigns the position of the decremented counter and enters CP at 0. -/
theorem consumeBit_of_rem_pos {s : State} (hphase : s.phase = .rb) (h : 1 ≤ s.rem.toNat) (b : Bool) :
    ∃ (a : Command) (r : Count), r.toNat = s.rem.toNat - 1 ∧
      (∀ j, j < 32 → a.getLsbD j = if j = r.toNat then b else s.acc.getLsbD j) ∧
      consumeBit b s = .next { s with acc := a, rem := r, phase := if r.toNat = 0 then .cp else .rb } := by
  have hne : s.rem ≠ 0#8 := fun h0 => by simp [h0] at h
  have hlast : phaseAfterBit (s.rem - 1#8) s.phase = if (s.rem - 1#8).toNat = 0 then .cp else .rb := by
    simp [phaseAfterBit, hphase, ← BitVec.toNat_inj]
  refine ⟨_, s.rem - 1#8, pred_toNat s.rem hne, writeBit_getLsbD s.acc _ b, ?_⟩
  rw [consumeBit_next.mpr ⟨hne, rfl⟩, takeBit_eq, hlast]

/-! ### The transition table (spec/42_edge_handler.md R91) -/

/-- Settles O27: each branch of a row is the symbol its condition spells, and the last branch of each phase is X. -/
theorem handlerTransitionTable : Obligations.HandlerTransitionTable := by
  refine ⟨fun s l o => (exec_edge_of_disarmed · l o), ?_⟩
  rintro s l o n harmed rfl
  refine ⟨fun hphase => ?_, fun hphase => ?_, fun hphase => ?_, fun hphase => ?_⟩
  · split_ifs with hpre
    · exact exec_edge_of_classify harmed (classify_eq_pre.mpr ⟨hphase, hpre⟩)
    · exact exec_edge_of_classify harmed (classify_eq_x.mpr (by simp [hphase, hpre]))
  · split_ifs with hgap hrpt
    · exact exec_edge_of_classify harmed (classify_eq_gap.mpr ⟨hphase, hgap⟩)
    · exact exec_edge_of_classify harmed (classify_eq_rpt.mpr ⟨hphase, hrpt⟩)
    · exact exec_edge_of_classify harmed (classify_eq_x.mpr (by simp [hphase, hgap, hrpt]))
  · split_ifs with hbit
    · obtain ⟨rfl, hrange⟩ := hbit
      have hsymbol := classify_of_bitWindow (bitWindow_of_range hrange)
      have hconsume := (exec_edge_of_classify harmed (hphase ▸ hsymbol)).trans (symbolAction_bit _ _)
      rw [hconsume]
      exact ⟨(consumeBit_of_rem_zero (s := s.captureAndReset) · _),
        (consumeBit_of_rem_pos (s := s.captureAndReset) hphase · _)⟩
    · exact exec_edge_of_classify harmed (classify_eq_x.mpr (by grind))
  · split_ifs with hhigh
    · exact exec_edge_of_classify harmed (classify_eq_fin.mpr ⟨hphase, hhigh⟩)
    · exact exec_edge_of_classify harmed (classify_eq_x.mpr (by simp [hphase, hhigh]))

/-! ### The rows one by one (spec/42_edge_handler.md R82 to R88) -/

/-- Settles O28: the row's range is the window, and its complement in AP is X. -/
theorem preRowEntersAwaitingGap : Obligations.PreRowEntersAwaitingGap := by
  refine ⟨fun s t harmed hphase hlo hhi => ?_, fun t houtside => ?_, fun t => rfl, ?_⟩
  · exact exec_of_row (y := .pre) rfl rfl harmed hphase hlo (Nat.le_of_lt_succ hhi)
  · exact classify_eq_x.mpr (by grind)
  · exact codedAs_of_row (fun _ => rfl) (by decide) rfl rfl

/-- Settles O29: the row's range is the window, and what is neither GAP's nor RPT's in AG is X. -/
theorem gapRowEntersReceivingBits : Obligations.GapRowEntersReceivingBits := by
  refine ⟨fun s t harmed hphase hlo hhi => ?_, fun t houtside => ?_, fun t => rfl, ?_⟩
  · exact exec_of_row (y := .gap) rfl rfl harmed hphase hlo (Nat.le_of_lt_succ hhi)
  · exact classify_eq_x.mpr (by grind)
  · exact codedAs_of_row (fun _ => rfl) (by decide) rfl rfl

/-- READ in CP answers true with `acc`, whether or not the stop edge has come. -/
theorem stepEvent_evRead_of_complete {s : State} (hconfigured : s.configured = true) (hphase : s.phase = .cp) :
    stepEvent evRead s = .next { s with ok := true, out := s.acc } := by
  rw [stepEvent_evRead hconfigured, answerRead_of_readable s hphase]

/-- Settles O30: CP while armed is pending-stop, and READ and FIN ask for no more than CP. -/
theorem rptRowEntersComplete : Obligations.RptRowEntersComplete := by
  refine ⟨fun s t harmed hphase hlo hhi => ⟨?_, ?_, rfl, fun hconfigured => ?_⟩, fun t => rfl, ?_⟩
  · exact exec_of_row (y := .rpt) rfl rfl harmed hphase hlo (Nat.le_of_lt_succ hhi)
  · exact harmed
  · exact (runEvents_singleton _ _).trans (stepEvent_evRead_of_complete hconfigured rfl)
  · exact codedAs_of_row (fun _ => rfl) (by decide) rfl rfl

/-- Either bit row consumes its bit where the interval lies in its window. -/
theorem exec_bitRow {s : State} {t : Tau} {b : Bool} (harmed : s.armed = true) (hphase : s.phase = .rb)
    (hwindow : if b then 20 < t.toNat ∧ t.toNat < 30 else 5 < t.toNat ∧ t.toNat < 10) :
    exec (if b then .b1 t else .b0 t) s = consumeBit b s := by
  cases b with
  | false =>
    obtain ⟨hlo, hhi⟩ := hwindow
    exact exec_of_row (y := .b0) rfl rfl harmed hphase hlo (Nat.le_of_lt_succ hhi)
  | true =>
    obtain ⟨hlo, hhi⟩ := hwindow
    exact exec_of_row (y := .b1) rfl rfl harmed hphase hlo (Nat.le_of_lt_succ hhi)

/-- Settles O31: the two rows are consume-bit of their bit (`exec_bitRow`). -/
theorem bitRowsConsumeABit : Obligations.BitRowsConsumeABit := by
  refine ⟨fun s t b harmed hphase hwindow => ?_, fun t houtside => ?_, ?_, ?_⟩
  · rw [exec_bitRow harmed hphase hwindow]
    exact ⟨(consumeBit_of_rem_zero · b), (consumeBit_of_rem_pos hphase · b)⟩
  · exact classify_eq_x.mpr (by grind)
  · exact codedAs_of_row (fun _ => rfl) (by decide) rfl rfl
  · exact codedAs_of_row (fun _ => rfl) (by decide) rfl rfl

/-- Settles O32: FIN's row has no bound on `tau`, and it leaves the block disarmed, where edges are unobserved. -/
theorem finRowDisarms : Obligations.FinRowDisarms := by
  refine ⟨fun s t harmed hphase => ⟨?_, ?_, fun es => runEvents_edges_of_disarmed rfl ?_⟩, ?_⟩
  · exact exec_of_row (y := .fin) rfl rfl harmed hphase (Nat.zero_le _) (Nat.le_of_lt_succ t.isLt)
  · simp [State.final, hphase]
  · exact List.forall_mem_map.mpr fun e _ => ⟨e.1, some e.2, decodeEvent_evEdge e.1 e.2⟩
  · exact codedAs_of_row (fun _ => rfl) (by decide) rfl rfl

/-- Every row of the table stands for a symbol. -/
theorem symbol?_of_row {i : Instr} {r : Row} (hrow : i.row? = some r) : ∃ y, i.symbol? = some y := by
  cases i with
  | init | start | stop | read | tick | edge => cases hrow
  | _ => exact ⟨_, rfl⟩

theorem wellFormed_of_row {i : Instr} {r : Row} (hrow : i.row? = some r) : i.wellFormed = r.holdsTau := by
  simp [Instr.wellFormed, hrow]

/-- Settles O34: each of the three is a conjunct of the row's condition that fails. -/
theorem rowsNotSelectedAreRefused : Obligations.RowsNotSelectedAreRefused := by
  intro i r s hrow hunmet
  obtain ⟨y, hsymbol⟩ := symbol?_of_row hrow
  rw [exec_row hsymbol, if_neg]
  rw [rowSelected_iff]
  rintro ⟨r', hrow', harmed, hphase, htau⟩
  cases hrow.symm.trans hrow'
  rw [wellFormed_of_row hrow] at hunmet
  simp [harmed, hphase, htau] at hunmet

/-! ### Alternating levels (spec/42_edge_handler.md R94) -/

/-- An edge whose level is not that of the edge before it consumes no bit: RB is entered by a low-level edge alone, so the next
edge is a high-level one, which leaves RB. -/
theorem stepEvent_edge_of_alternates {s : State} {prev l : Level} (t : Tau) (hlevel : l ≠ prev)
    (hprev : s.armed = true → s.phase = .rb → prev = .low) :
    ∃ u, stepEvent (evEdge l t) s = .next u ∧ u.acc = s.acc ∧ u.rem = s.rem ∧
      (u.armed = true → u.phase = .rb → l = .low) := by
  cases harmed : s.armed with
  | false => exact ⟨s, stepEvent_edge_disarmed l t s harmed, rfl, rfl, by simp [harmed]⟩
  | true =>
    have hnobit : ¬(s.phase = .rb ∧ l = .low) := fun ⟨hphase, hlow⟩ => hlevel (hlow.trans (hprev harmed hphase).symm)
    cases hsymbol : classify s.phase l t with
    | b0 =>
      obtain ⟨hphase, hlow, -⟩ := classify_eq_b0.mp hsymbol
      exact absurd ⟨hphase, hlow⟩ hnobit
    | b1 =>
      obtain ⟨hphase, hlow, -⟩ := classify_eq_b1.mp hsymbol
      exact absurd ⟨hphase, hlow⟩ hnobit
    | gap =>
      obtain ⟨-, hlow, -⟩ := classify_eq_gap.mp hsymbol
      exact ⟨_, stepEvent_edge_of_classify harmed hsymbol, rfl, rfl, fun _ _ => hlow⟩
    | fin => exact ⟨_, stepEvent_edge_of_classify harmed hsymbol, rfl, rfl, nofun⟩
    | pre => exact ⟨_, stepEvent_edge_of_classify harmed hsymbol, rfl, rfl, nofun⟩
    | rpt => exact ⟨_, stepEvent_edge_of_classify harmed hsymbol, rfl, rfl, nofun⟩
    | x => exact ⟨_, stepEvent_edge_of_classify harmed hsymbol, rfl, rfl, nofun⟩

/-- A list of such edges consumes none either: each keeps the premise on RB for the next. -/
theorem runEvents_edges_of_alternates {es : List (Level × Tau)} {s : State} {prev : Level}
    (hprev : s.armed = true → s.phase = .rb → prev = .low) (halternates : Alternates prev es) :
    ∃ t, runEvents (edgeEvents es) s = .next t ∧ t.acc = s.acc ∧ t.rem = s.rem := by
  induction es generalizing s prev with
  | nil => exact ⟨s, rfl, rfl, rfl⟩
  | cons e es ih =>
    obtain ⟨hlevel, hrest⟩ := halternates
    obtain ⟨u, hstep, hacc, hrem, hnext⟩ := stepEvent_edge_of_alternates e.2 hlevel hprev
    obtain ⟨t, hrun, htacc, htrem⟩ := ih hnext hrest
    exact ⟨t, (runEvents_cons_next hstep).trans hrun, htacc.trans hacc, htrem.trans hrem⟩

/-- Settles O50: phase AP is not RB. -/
theorem alternatingLevelsConsumeNoBit : Obligations.AlternatingLevelsConsumeNoBit :=
  fun _ _ _ hphase => runEvents_edges_of_alternates fun _ hrb => nomatch hphase.symm.trans hrb

/-! ### Edges that match no row -/

/-- Any number of edges that are X in AP leaves an armed block in AP with its registers as they were. -/
theorem runEvents_noMatch_in_ap {es : List Event} {s : State} (harmed : s.armed = true) (hphase : s.phase = .ap)
    (hedges : ∀ e ∈ es, ∃ l t, e = evEdge l t ∧ classify .ap l t = .x) :
    ∃ u, runEvents es s = .next u ∧ SameRegisters s u := by
  induction es generalizing s with
  | nil => exact ⟨s, rfl, .refl s⟩
  | cons e es ih =>
    obtain ⟨⟨l, t, rfl, hsymbol⟩, hrest⟩ := List.forall_mem_cons.mp hedges
    have hstep := stepEvent_edge_of_classify harmed (hphase ▸ hsymbol)
    have hsame : SameRegisters s (s.captureAndReset.setPhase .ap) := ⟨rfl, rfl, hphase.symm, rfl, rfl⟩
    obtain ⟨u, hrun, hu⟩ := ih (s := s.captureAndReset.setPhase .ap) harmed rfl hrest
    exact ⟨u, (runEvents_cons_next hstep).trans hrun, hsame.trans hu⟩

/-- START and any edges that are X in AP begin a capture. -/
theorem runEvents_start_noise {s : State} {noise : List (Level × Tau)} (hconfigured : s.configured = true)
    (hnoise : ∀ e ∈ noise, classify .ap e.1 e.2 = .x) :
    ∃ u, runEvents (evStart :: edgeEvents noise) s = .next u ∧ SameRegisters s.beginCapture u := by
  rw [runEvents_cons_next (stepEvent_evStart hconfigured)]
  exact runEvents_noMatch_in_ap rfl rfl (List.forall_mem_map.mpr fun e he => ⟨e.1, e.2, rfl, hnoise e he⟩)

/-! ### The bits of a frame (spec/42_edge_handler.md R92, R93) -/

/-- The handler is receiving the bits of a frame, with `r` of them to come: after the last one it is in CP. -/
structure Receiving (s : State) (r : Nat) : Prop where
  configured : s.configured = true
  armed : s.armed = true
  rem : s.rem.toNat = r
  phase : s.phase = if r = 0 then .cp else .rb

/-- A bit edge is received at the highest position still to come. -/
theorem stepEvent_bitEdge {s : State} {r : Nat} {b : Bool} {t : Tau} (hs : Receiving s (r + 1))
    (hwindow : (if b then inOneWindow t else inZeroWindow t) = true) :
    ∃ u, stepEvent (evEdge .low t) s = .next u ∧ Receiving u r ∧
      ∀ j, j < 32 → u.acc.getLsbD j = if j = r then b else s.acc.getLsbD j := by
  have hphase : s.phase = .rb := hs.phase
  have hrem : 1 ≤ s.captureAndReset.rem.toNat := hs.rem.symm ▸ Nat.le_add_left 1 r
  obtain ⟨a, c, hc, ha, hconsume⟩ := consumeBit_of_rem_pos (s := s.captureAndReset) hphase hrem b
  obtain rfl : c.toNat = r := hc.trans (Nat.sub_eq_of_eq_add hs.rem)
  have hstep := stepEvent_edge_of_classify hs.armed (hphase ▸ classify_of_bitWindow hwindow)
  exact ⟨_, hstep.trans ((symbolAction_bit b _).trans hconsume), ⟨hs.configured, hs.armed, rfl, rfl⟩, ha⟩

/-- `k` bit edges, the lowest of them bit `n` of `x`, are received at the `k` positions from `r` up. -/
theorem runEvents_bitEdges {s : State} {x : Command} {tBit : Nat → Tau} {k r n : Nat} (hs : Receiving s (k + r))
    (hspells : Spells x tBit (k + n)) :
    ∃ u, runEvents ((bitEdges tBit (k + n)).take k) s = .next u ∧ Receiving u r ∧
      ∀ j, j < 32 → u.acc.getLsbD j = if r ≤ j ∧ j < k + r then x.getLsbD (n + (j - r)) else s.acc.getLsbD j := by
  induction k generalizing s with
  | zero =>
    rw [Nat.zero_add] at hs
    exact ⟨s, rfl, hs, fun j _ => (if_neg (by omega)).symm⟩
  | succ k ih =>
    rw [Nat.add_right_comm] at hs hspells ⊢
    obtain ⟨v, hstep, hv, hvacc⟩ := stepEvent_bitEdge hs (hspells (k + n) (Nat.lt_succ_self _))
    obtain ⟨u, hrun, hu, huacc⟩ := ih hv fun i hi => hspells i (Nat.lt_succ_of_lt hi)
    refine ⟨u, (runEvents_cons_next hstep).trans hrun, hu, fun j hj => ?_⟩
    rw [huacc j hj, hvacc j hj]
    by_cases hlast : j = k + r
    · subst hlast
      simp [Nat.add_comm]
    · have hsame : (r ≤ j ∧ j < k + r) ↔ (r ≤ j ∧ j < k + 1 + r) := by omega
      simp only [hlast, hsame, if_false]

/-- The preamble and the gap take an armed block from AP to RB, and write nothing else but the timer. -/
theorem runEvents_preamble_gap {s : State} {tPre tGap : Tau} {es : List Event} (harmed : s.armed = true)
    (hphase : s.phase = .ap) (hpre : inPreambleWindow tPre = true) (hgap : inGapWindow tGap = true) :
    runEvents (evEdge .high tPre :: evEdge .low tGap :: es) s = runEvents es (s.captureAndReset.setPhase .rb) := by
  have hag : stepEvent (evEdge .high tPre) s = .next (s.captureAndReset.setPhase .ag) :=
    stepEvent_edge_of_classify harmed (classify_eq_pre.mpr ⟨hphase, rfl, inPreambleWindow_iff.mp hpre⟩)
  have hrb : stepEvent (evEdge .low tGap) (s.captureAndReset.setPhase .ag) = .next (s.captureAndReset.setPhase .rb) :=
    stepEvent_edge_of_classify (s := s.captureAndReset.setPhase .ag) harmed
      (classify_eq_gap.mpr ⟨rfl, rfl, inGapWindow_iff.mp hgap⟩)
  rw [runEvents_cons_next hag, runEvents_cons_next hrb]

/-- The first `k` bits of a frame of `x`, received with the counter at `k + r`, lie over the `k` positions from `r` up. -/
theorem runEvents_frameHead {s : State} {x : Command} {tPre tGap : Tau} {tBit : Nat → Tau} {k r n N : Nat}
    (hconfigured : s.configured = true) (harmed : s.armed = true) (hphase : s.phase = .ap)
    (hrem : s.rem.toNat = k + r) (hpos : 1 ≤ k + r) (hpre : inPreambleWindow tPre = true)
    (hgap : inGapWindow tGap = true) (hspells : Spells x tBit N) (hn : k + n = N) :
    ∃ u, runEvents ((frameHead tPre tGap tBit N).take (2 + k)) s = .next u ∧ Receiving u r ∧
      ∀ j, j < 32 → u.acc.getLsbD j = if r ≤ j ∧ j < k + r then x.getLsbD (n + (j - r)) else s.acc.getLsbD j := by
  have hs : Receiving (s.captureAndReset.setPhase .rb) (k + r) :=
    ⟨hconfigured, harmed, hrem, (if_neg (Nat.ne_of_gt hpos)).symm⟩
  subst hn
  rw [Nat.add_comm 2 k, frameHead, List.take_succ_cons, List.take_succ_cons, runEvents_preamble_gap harmed hphase hpre hgap]
  exact runEvents_bitEdges hs hspells

/-! ### The rest of a frame -/

theorem bitEdges_eq_take_append (tBit : Nat → Tau) (k n : Nat) :
    bitEdges tBit (k + n) = (bitEdges tBit (k + n)).take k ++ bitEdges tBit n := by
  induction k with
  | zero => simp
  | succ k ih =>
    rw [Nat.add_right_comm, bitEdges, List.take_succ_cons, List.cons_append, ← ih]

/-- A data frame is its first `k` bits, the `n` bits after them and the stop edge. -/
theorem dataFrame_eq_append (tPre tGap : Tau) (tBit : Nat → Tau) (tStop : Tau) {k n : Nat} (hn : k + n = 32) :
    dataFrame tPre tGap tBit tStop =
      (frameHead tPre tGap tBit 32).take (2 + k) ++ (bitEdges tBit n ++ [evEdge .high tStop]) := by
  rw [dataFrame, ← List.append_assoc, ← hn]
  conv_lhs => rw [frameHead, bitEdges_eq_take_append]
  rw [Nat.add_comm 2 k]
  rfl

theorem low_of_mem_bitEdges {tBit : Nat → Tau} {n : Nat} {e : Event} (h : e ∈ bitEdges tBit n) :
    ∃ t, e = evEdge .low t := by
  induction n with
  | zero => cases h
  | succ n ih =>
    rcases List.mem_cons.mp h with rfl | hrest
    · exact ⟨_, rfl⟩
    · exact ih hrest

section
variable {s : State} (hs : Receiving s 0)
include hs

/-- The stop edge after the last bit is FIN, and READ after it answers true with `acc`. -/
theorem runEvents_stopEdge_evRead_of_received (t : Tau) : runEvents [evEdge .high t, evRead] s =
    .next { s with armed := false, tcnt := 0#8, ovf := false, ok := true, out := s.acc } := by
  have hfin : stepEvent (evEdge .high t) s = .next (s.captureAndReset.setArmed false) :=
    stepEvent_edge_of_classify hs.armed (classify_eq_fin.mpr ⟨hs.phase, rfl⟩)
  rw [runEvents_cons_next hfin, runEvents_singleton]
  exact stepEvent_evRead_of_complete (s := s.captureAndReset.setArmed false) hs.configured hs.phase

/-- Of the bits that come after the counter has reached 0 the first is X in CP; the ones after it and a short stop edge are
X in AP. -/
theorem runEvents_excess_bits (tBit : Nat → Tau) (n : Nat) {tStop : Tau} (hstop : tStop.toNat ≤ 120) :
    ∃ u, runEvents (bitEdges tBit (n + 1) ++ [evEdge .high tStop]) s = .next u ∧ SameRegisters (s.setPhase .ap) u := by
  have hfirst : stepEvent (evEdge .low (tBit n)) s = .next (s.captureAndReset.setPhase .ap) :=
    stepEvent_edge_of_classify hs.armed (classify_eq_x.mpr (by simp [hs.phase]))
  have hshort : classify .ap .high tStop = .x := classify_eq_x.mpr (by grind)
  have hrest : ∀ e ∈ bitEdges tBit n ++ [evEdge .high tStop], ∃ l t, e = evEdge l t ∧ classify .ap l t = .x := by
    intro e he
    rcases List.mem_append.mp he with hbit | hlast
    · obtain ⟨t, rfl⟩ := low_of_mem_bitEdges hbit
      exact ⟨_, t, rfl, rfl⟩
    · exact ⟨_, tStop, List.mem_singleton.mp hlast, hshort⟩
  obtain ⟨u, hrun, hu⟩ := runEvents_noMatch_in_ap (s := s.captureAndReset.setPhase .ap) hs.armed rfl hrest
  have hsame : SameRegisters (s.setPhase .ap) (s.captureAndReset.setPhase .ap) := ⟨rfl, rfl, rfl, rfl, rfl⟩
  exact ⟨u, (runEvents_cons_next hfirst).trans hrun, hsame.trans hu⟩

end

/-! ### Captures -/

/-- Settles O44: START gives the counter the frame's own length, so bit `j` is received at position `j`. -/
theorem cleanCaptureDeliversTheWord : Obligations.CleanCaptureDeliversTheWord := by
  intro s noise x tPre tGap tStop tBit hconfigured hnoise hpre hgap hspells
  obtain ⟨u, hstart, hu⟩ := runEvents_start_noise hconfigured hnoise
  have hrem : u.rem.toNat = 32 := congrArg BitVec.toNat hu.rem
  have hbits (k : Nat) (hk : k ≤ 32) := runEvents_frameHead (s := u) (k := k) (r := 32 - k) (n := 32 - k)
    (hu.configured.trans hconfigured) hu.armed hu.phase (by omega) (by omega) hpre hgap hspells (by omega)
  refine ⟨fun k hk => ?_, ?_⟩
  · obtain ⟨t, hrun, ht, hacc⟩ := hbits k hk
    refine ⟨t, (runEvents_append_next hstart).trans hrun, ht.rem, ht.armed, fun j hj => ?_⟩
    have hzero : u.acc.getLsbD j = false := hu.acc ▸ BitVec.getLsbD_zero
    rw [hacc j hj, hzero]
    grind
  · obtain ⟨t, hrun, ht, hacc⟩ := hbits 32 le_rfl
    have hword : t.acc = x := BitVec.eq_of_getLsbD_eq fun j hj => by rw [hacc j hj]; grind
    have hframe : runEvents (dataFrame tPre tGap tBit tStop ++ [evRead]) u = runEvents [evEdge .high tStop, evRead] t := by
      rw [dataFrame_eq_append tPre tGap tBit tStop (Nat.add_zero 32), List.append_assoc, runEvents_append_next hrun]
      rfl
    have hend := runEvents_stopEdge_evRead_of_received ht tStop
    exact ⟨_, (runEvents_append_next hstart).trans (hframe.trans hend), rfl, ht.phase, hword,
      BitVec.eq_of_toNat_eq ht.rem, rfl, hword⟩

/-- Settles O45: the counter reaches 0 after `r` bits, whose positions are `r - 1` down to 0. -/
theorem staleCounterMixesTwoFrames : Obligations.StaleCounterMixesTwoFrames := by
  intro s x tPre tGap tBit r hconfigured harmed hphase hrem hpos hmax hpre hgap hspells
  obtain ⟨t, hrun, ht, hacc⟩ := runEvents_frameHead (k := r) (r := 0) (n := 32 - r) hconfigured harmed hphase hrem hpos
    hpre hgap hspells (by omega)
  have hread := (runEvents_singleton evRead t).trans (stepEvent_evRead_of_complete ht.configured ht.phase)
  refine ⟨_, (runEvents_append_next hrun).trans hread, ht.phase, BitVec.eq_of_toNat_eq ht.rem, ht.armed, rfl, rfl,
    fun j hj => ?_⟩
  simpa [Nat.add_comm] using hacc j hj

/-- Settles O46: after `r` bits the counter is 0 and the rest of the frame is X (`runEvents_excess_bits`). -/
theorem staleCounterFrameIsNeverFinal : Obligations.StaleCounterFrameIsNeverFinal := by
  intro s x tPre tGap tStop tBit r hconfigured harmed hphase hrem hpos hmax hpre hgap hspells hstop
  have hbits : r + (31 - r + 1) = 32 := by omega
  obtain ⟨t, hrun, ht, hacc⟩ := runEvents_frameHead (k := r) (r := 0) hconfigured harmed hphase hrem hpos hpre hgap
    hspells hbits
  obtain ⟨u, hrest, hu⟩ := runEvents_excess_bits ht tBit (31 - r) hstop
  refine ⟨u, ?_, hu.phase, hu.rem.trans (BitVec.eq_of_toNat_eq ht.rem), hu.armed.trans ht.armed, fun j hj => ?_⟩
  · rw [dataFrame_eq_append tPre tGap tBit tStop hbits, runEvents_append_next hrun, hrest]
  · have hshift : 31 - r + 1 + j = j + (32 - r) := by omega
    rw [hu.acc]
    simpa [hshift] using hacc j hj

end Sys2Proof.Machine
end

section
/-! PROOFS. The statements of spec/60_exceptions.md: what the handler's context may do, and the idle step. -/

namespace Sys2Proof.Machine

/-! ### The handler's context (spec/60_exceptions.md R109) -/

/-- A step of the handler that goes on is an unobserved edge, or ends with the action of one symbol: after capture and reset where
it is an edge, on the state as it is where it is a classifier row. -/
theorem exec_next_of_handler {i : Instr} {s t : State} (hagent : i.agent = .handler) (h : exec i s = .next t) :
    t = s ∨ ∃ y, symbolAction y s.captureAndReset = .next t ∨ symbolAction y s = .next t := by
  rcases exec_next h with ⟨rfl, -, -⟩ | ⟨rfl, -, -⟩ | ⟨rfl, -, -⟩ | ⟨rfl, -, -⟩ | ⟨rfl, -, -⟩ | ⟨rfl, -, -⟩ |
    ⟨l, o, -, -, hunobserved⟩ | ⟨l, o, -, -, hedge⟩ | ⟨y, -, -, hrow⟩
  iterate 6 · cases hagent
  · exact .inl hunobserved
  · exact .inr ⟨_, .inl hedge⟩
  · exact .inr ⟨y, .inr hrow⟩

section
variable {y : Symbol} {s t : State} (h : symbolAction y s = .next t)
include h

/-- The consumer's `ok` is no more the handler's to write than its `out` is (`symbolAction_out`). -/
theorem symbolAction_ok : t.ok = s.ok := by
  rcases symbolAction_next h with
    ⟨-, rfl⟩ | ⟨-, rfl⟩ | ⟨-, rfl⟩ | ⟨_, -, -, rfl⟩ | ⟨-, rfl⟩ | ⟨-, rfl⟩ <;> rfl

/-- No symbol's action oversteps the rights of the handler's context; only FIN's writes `armed`, and it clears it. -/
theorem symbolAction_within_rights :
    (t.armed = true → s.armed = true) ∧ t.configured = s.configured ∧ t.out = s.out ∧ t.ok = s.ok := by
  refine ⟨fun harmed => ?_, symbolAction_configured h, symbolAction_out h, symbolAction_ok h⟩
  rcases symbolAction_armed h with hkept | ⟨-, hcleared⟩
  · exact hkept.symm.trans harmed
  · simp [harmed] at hcleared

end

/-- Settles O39: capture and reset writes the timer alone, so an edge keeps within the rights as its symbol's action does. -/
theorem handlerRights : Obligations.HandlerRights := by
  intro i s t hagent h
  rcases exec_next_of_handler hagent h with rfl | ⟨y, hedge | hrow⟩
  · exact ⟨id, rfl, rfl, rfl⟩
  · simpa [captureAndReset_eq] using symbolAction_within_rights hedge
  · exact symbolAction_within_rights hrow

/-! ### Between events (spec/60_exceptions.md R113) -/

/-- There is an event to take exactly where one is pending. -/
theorem takeEvent_eq_none_iff {s : State} : s.takeEvent = none ↔ s.inputs = [] := by
  unfold State.takeEvent
  cases s.inputs <;> simp

/-- Settles O9: without an event to take the step is idle. -/
theorem stepWithoutEventIsIdle : Obligations.StepWithoutEventIsIdle := by
  intro s hnone
  rw [step, takeEvent_eq_none_iff.mpr hnone]

end Sys2Proof.Machine
end

section
/-! PROOFS. The statements of spec/70_reset_and_hazards.md: the intervals that alias, the counter that underflows, the repeat
frame's stale word, and the word that a low-level edge takes away. -/

namespace Sys2Proof.Machine

/-! ### Aliasing intervals (spec/70_reset_and_hazards.md R123) -/

/-- A Level T edge reads nothing of the ticks before it but their number modulo 256. -/
theorem runEvents_evTicks_evEdgeT {s : State} (hconfigured : s.configured = true) (harmed : s.armed = true) (n : Nat)
    (l : Level) : runEvents (evTicks n ++ [evEdgeT l]) s = stepEvent (evEdge l (s.tcnt + BitVec.ofNat 8 n)) s := by
  obtain ⟨o, hticks⟩ := runEvents_evTicks hconfigured n
  rw [runEvents_append_next hticks, runEvents_singleton]
  exact stepEvent_evEdgeT_setTimer harmed l _ o

/-- Settles O23: the two numbers of ticks are one number modulo 256. -/
theorem intervalsAlias : Obligations.IntervalsAlias := by
  intro s n l hconfigured harmed
  have halias : BitVec.ofNat 8 (n + 256) = BitVec.ofNat 8 n := BitVec.eq_of_toNat_eq (by simp)
  rw [runEvents_evTicks_evEdgeT hconfigured harmed, runEvents_evTicks_evEdgeT hconfigured harmed, halias]

/-! ### Leaving pending-stop (spec/70_reset_and_hazards.md R126, R127) -/

/-- A low-level edge in pending-stop is X: it takes the block back to AP and leaves the word and the counter as they are. -/
theorem stepEvent_lowEdge_of_pendingStop {s : State} (harmed : s.armed = true) (hphase : s.phase = .cp) (t : Tau) :
    stepEvent (evEdge .low t) s = .next (s.captureAndReset.setPhase .ap) :=
  stepEvent_edge_of_classify harmed (classify_eq_x.mpr (by simp [hphase]))

/-- A high-level edge after 120 ticks or fewer is no preamble end. -/
theorem classify_shortHigh_in_ap {t : Tau} (hshort : t.toNat ≤ 120) : classify .ap .high t = .x := by
  have hnopre : ¬(121 ≤ t.toNat ∧ t.toNat ≤ 159) := by omega
  exact classify_eq_x.mpr (by simpa using hnopre)

/-! ### The underflow (spec/70_reset_and_hazards.md R127) -/

/-- A bit edge in RB with no bit left to receive is the fault. -/
theorem stepEvent_bitEdge_of_rem_zero {s : State} {b : Bool} {t : Tau} (harmed : s.armed = true) (hphase : s.phase = .rb)
    (hrem : s.rem.toNat = 0) (hwindow : (if b then inOneWindow t else inZeroWindow t) = true) :
    stepEvent (evEdge .low t) s = .fault .bitCounterUnderflow := by
  rw [stepEvent_edge_of_classify harmed (hphase ▸ classify_of_bitWindow hwindow), symbolAction_bit]
  exact consumeBit_of_rem_zero (s := s.captureAndReset) hrem b

/-- With the counter at 0 in AP, the first bit edge of a frame is the fault. -/
theorem runEvents_frame_of_rem_zero {s : State} {b : Bool} {tPre tGap t : Tau} (harmed : s.armed = true)
    (hphase : s.phase = .ap) (hrem : s.rem.toNat = 0) (hpre : inPreambleWindow tPre = true)
    (hgap : inGapWindow tGap = true) (hwindow : (if b then inOneWindow t else inZeroWindow t) = true) :
    runEvents [evEdge .high tPre, evEdge .low tGap, evEdge .low t] s = .fault .bitCounterUnderflow := by
  rw [runEvents_preamble_gap harmed hphase hpre hgap]
  exact runEvents_cons_fault (stepEvent_bitEdge_of_rem_zero harmed rfl hrem hwindow)

/-- Settles O47: the capture leaves the counter at 0, the low-level edge leaves it there, and only START would set it again. -/
theorem underflowIsReachable : Obligations.UnderflowIsReachable := by
  intro s x tPre tGap tLow tBitAgain tBit hconfigured hpre hgap hspells hbit
  obtain ⟨b, hwindow⟩ : ∃ b : Bool, (if b then inOneWindow tBitAgain else inZeroWindow tBitAgain) = true :=
    hbit.elim (⟨false, ·⟩) (⟨true, ·⟩)
  obtain ⟨t, hframe, ht, -⟩ := runEvents_frameHead (s := s.beginCapture) (k := 32) (r := 0) (n := 0) hconfigured rfl rfl
    rfl (by decide) hpre hgap hspells rfl
  have hhead : (frameHead tPre tGap tBit 32).take (2 + 32) = frameHead tPre tGap tBit 32 := rfl
  rw [runEvents_cons_next (stepEvent_evStart hconfigured), runEvents_append_next (hhead ▸ hframe),
    runEvents_cons_next (stepEvent_lowEdge_of_pendingStop ht.armed ht.phase tLow)]
  exact runEvents_frame_of_rem_zero ht.armed rfl ht.rem hpre hgap hwindow

/-! ### The repeat frame (spec/70_reset_and_hazards.md R133) -/

/-- A repeat frame ends in the final sub-state, and READ answers true with an `acc` that the frame did not write. -/
theorem runEvents_repeatFrame_evRead {s : State} {tPre tRpt : Tau} (tStop : Tau) (hconfigured : s.configured = true)
    (harmed : s.armed = true) (hphase : s.phase = .ap) (hpre : inPreambleWindow tPre = true)
    (hrpt : inRepeatWindow tRpt = true) :
    runEvents (repeatFrame tPre tRpt tStop ++ [evRead]) s =
      .next { s with phase := .cp, armed := false, tcnt := 0#8, ovf := false, out := s.acc, ok := true } := by
  have hag : stepEvent (evEdge .high tPre) s = .next (s.captureAndReset.setPhase .ag) :=
    stepEvent_edge_of_classify harmed (classify_eq_pre.mpr ⟨hphase, rfl, inPreambleWindow_iff.mp hpre⟩)
  have hcp : stepEvent (evEdge .low tRpt) (s.captureAndReset.setPhase .ag) = .next (s.captureAndReset.setPhase .cp) :=
    stepEvent_edge_of_classify (s := s.captureAndReset.setPhase .ag) harmed
      (classify_eq_rpt.mpr ⟨rfl, rfl, inRepeatWindow_iff.mp hrpt⟩)
  have hfin : stepEvent (evEdge .high tStop) (s.captureAndReset.setPhase .cp) =
      .next ((s.captureAndReset.setPhase .cp).setArmed false) :=
    stepEvent_edge_of_classify (s := s.captureAndReset.setPhase .cp) harmed (classify_eq_fin.mpr ⟨rfl, rfl⟩)
  have hframe : runEvents (repeatFrame tPre tRpt tStop) s = .next ((s.captureAndReset.setPhase .cp).setArmed false) := by
    rw [repeatFrame, runEvents_cons_next hag, runEvents_cons_next hcp, runEvents_singleton, hfin]
  rw [runEvents_append_next hframe, runEvents_singleton]
  exact stepEvent_evRead_of_complete (s := (s.captureAndReset.setPhase .cp).setArmed false) hconfigured rfl

/-- Settles O48: from START the resident word is 0. -/
theorem repeatFrameKeepsAccumulator : Obligations.RepeatFrameKeepsAccumulator := by
  intro s tPre tRpt tStop hconfigured hpre hrpt
  refine ⟨fun harmed hphase => runEvents_repeatFrame_evRead tStop hconfigured harmed hphase hpre hrpt, ?_⟩
  rw [runEvents_cons_next (stepEvent_evStart hconfigured)]
  exact runEvents_repeatFrame_evRead (s := s.beginCapture) tStop hconfigured rfl rfl hpre hrpt

/-! ### The word taken away (spec/70_reset_and_hazards.md R126) -/

/-- After a low-level edge in pending-stop, one READ or more answer false and leave `out` as it was. -/
theorem runEvents_lowEdge_evReads_of_pendingStop {s : State} (hconfigured : s.configured = true) (harmed : s.armed = true)
    (hphase : s.phase = .cp) (t : Tau) (n : Nat) :
    runEvents (evEdge .low t :: List.replicate (n + 1) evRead) s =
      .next { s with phase := .ap, tcnt := 0#8, ovf := false, ok := false } := by
  have hreads := runEvents_replicate_evRead (s := s.captureAndReset.setPhase .ap) hconfigured n
  have hleft : (s.captureAndReset.setPhase .ap).phase ≠ .cp := nofun
  rw [runEvents_cons_next (stepEvent_lowEdge_of_pendingStop harmed hphase t), hreads, answerRead_of_not_readable _ hleft]
  rfl

/-- Settles O49: READ asks for CP alone, the low-level edge leaves it for AP, and in AP, where START leads too, a short stop
edge is X. -/
theorem readTrueCanBecomeFalse : Obligations.ReadTrueCanBecomeFalse := by
  intro s t hconfigured hpending
  obtain ⟨hcp, harmed⟩ := Bool.and_eq_true_iff.mp hpending
  have hphase : s.phase = .cp := of_decide_eq_true hcp
  have hread := stepEvent_evRead_of_complete hconfigured hphase
  refine ⟨(runEvents_singleton _ _).trans hread, fun n => (runEvents_cons_next hread).trans ?_, fun hshort => ?_⟩
  · exact runEvents_lowEdge_evReads_of_pendingStop (s := { s with ok := true, out := s.acc }) hconfigured harmed hphase t n
  · have hstop := stepEvent_edge_of_classify (s := s.beginCapture) rfl (classify_shortHigh_in_ap hshort)
    exact (runEvents_cons_next (stepEvent_evStart hconfigured)).trans ((runEvents_singleton _ _).trans hstop)

end Sys2Proof.Machine
end
